-- ==== Sys2Proof/Word.lean ====
section
/-!
DEFINITION. The numbers and small index types of the GB-2408: bytes, client numbers, line numbers, slots, generators,
and fixed-length tables. Numbering from zero throughout (00_scope.md, Notational Conventions).
-/

namespace Sys2Proof

/-- A byte of a frame or a response; bit 7 is its most significant bit (00_scope.md). -/
abbrev Byte := BitVec 8

/-- A client number, 0–7 (R158). -/
abbrev Client := Fin 8

/-- A line number, 0–23: A0–A7, B0–B7, C0–C7 (R1). -/
abbrev Line := Fin 24

/-- A slot of the lease table, 0–31 (R18). -/
abbrev Slot := Fin 32

/-- A pulse generator, 0–3 (R115). -/
abbrev GenIx := Fin 4

/-- A set of lines, held as the line mask that frames carry: bit n stands for line n (R187). -/
abbrev LineSet := BitVec 24

/-- The table whose record at each index is given by a function. -/
def tabulate {α : Type} {n : Nat} (f : Fin n → α) : Vector α n := ⟨⟨List.ofFn f⟩, by simp⟩

@[simp] theorem tabulate_getElem {α : Type} {n : Nat} (f : Fin n → α) (i : Fin n) : (tabulate f)[i] = f i := by
  simp [tabulate]

@[simp] theorem tabulate_getElem_nat {α : Type} {n : Nat} (f : Fin n → α) (i : Nat) (h : i < n) :
    (tabulate f)[i] = f ⟨i, h⟩ := by
  simp [tabulate]

/-- Every line, in ascending order. -/
def allLines : List Line := List.finRange 24

/-- Every slot of the lease table, in ascending order. -/
def allSlots : List Slot := List.finRange 32

/-- Every client number, in ascending order. -/
def allClients : List Client := List.finRange 8

/-- Every generator, in ascending order. -/
def allGenerators : List GenIx := List.finRange 4

@[simp] theorem mem_allLines (l : Line) : l ∈ allLines := List.mem_finRange l

@[simp] theorem mem_allSlots (i : Slot) : i ∈ allSlots := List.mem_finRange i

@[simp] theorem mem_allClients (c : Client) : c ∈ allClients := List.mem_finRange c

@[simp] theorem mem_allGenerators (g : GenIx) : g ∈ allGenerators := List.mem_finRange g

end Sys2Proof
end

