-- ==== Sys2Proof/Syntax.lean ====
section
/-!
DEFINITION. The commands of the block: one constructor of `Instr` for each row of spec/opcode_table.json, with the
operands that the outside supplies. A row that the owning block takes from a client's BUSY response slot (R182) has
the client number as its operand: the tag and the body stand in the slot.
-/

namespace Sys2Proof

/-- The two host ports (Table 9-1). -/
inductive Port where
  /-- Port I, the I2C target of clients 0–3. -/
  | portI
  /-- Port S, the SPI target of clients 4–7. -/
  | portS
  deriving DecidableEq, Repr

/-- What the controller does on Port I's bus in a write transaction (R176). -/
inductive BusWrite where
  /-- START or repeated START: a transaction begins. -/
  | start
  /-- The address byte of a write, with its 7-bit address. -/
  | address (a : BitVec 7)
  /-- One whole data byte. -/
  | data (b : Byte)
  deriving DecidableEq, Repr

/-- What the controller does on Port I's bus in a read transaction (R177). -/
inductive BusRead where
  /-- START or repeated START: a transaction begins. -/
  | start
  /-- The address byte of a read, with its 7-bit address. -/
  | address (a : BitVec 7)
  /-- One whole byte is clocked out. -/
  | clock
  /-- Not-acknowledge and STOP or repeated START: the read ends. -/
  | stop
  deriving DecidableEq, Repr

/-- What the controller does in a chip-select window of Port S (R178). -/
inductive WindowEvent where
  /-- S_SEL_N falls: the window begins. -/
  | select
  /-- The eighth bit of the opener is received. -/
  | opener (b : Byte)
  /-- One whole byte after the opener is clocked, with the byte on S_DI. -/
  | byte (b : Byte)
  /-- S_SEL_N rises: the window ends. -/
  | close
  deriving DecidableEq, Repr

/-- One constructor per row of spec/opcode_table.json. -/
inductive Instr where
  /-- PORT_I_WRITE, R176. -/
  | portIWrite (e : BusWrite)
  /-- PORT_I_READ, R177. -/
  | portIRead (e : BusRead)
  /-- PORT_S_COMMAND_WINDOW, R179. -/
  | portSCommandWindow (e : WindowEvent)
  /-- PORT_S_FETCH_WINDOW, R180. -/
  | portSFetchWindow (e : WindowEvent)
  /-- FRAME_ARRIVAL, R181: STOP or repeated START on Port I, S_SEL_N rising on Port S. -/
  | frameArrival (p : Port)
  /-- ATTACH, R160. -/
  | attach (c : Client)
  /-- DETACH, R163. -/
  | detach (c : Client)
  /-- SET_ATTENTION, R155. -/
  | setAttention (c : Client)
  /-- PING, R164. -/
  | ping (c : Client)
  /-- ACQUIRE, R35. -/
  | acquire (c : Client)
  /-- CANCEL, R37. -/
  | cancel (c : Client)
  /-- RELEASE, R36. -/
  | release (c : Client)
  /-- RENEW, R84. -/
  | renew (c : Client)
  /-- ACKNOWLEDGE, R38. -/
  | acknowledge (c : Client)
  /-- RECONFIGURE, R41. -/
  | reconfigure (c : Client)
  /-- DESCRIBE, R42. -/
  | describe (c : Client)
  /-- LIST, R43. -/
  | list (c : Client)
  /-- WRITE_LEVELS, R98. -/
  | writeLevels (c : Client)
  /-- READ_LEVELS, R100. -/
  | readLevels (c : Client)
  /-- SET_WATCH, R104. -/
  | setWatch (c : Client)
  /-- CLEAR_WATCH, R105. -/
  | clearWatch (c : Client)
  /-- SET_PULSE, R123. -/
  | setPulse (c : Client)
  /-- CONVERT, R135. -/
  | convert (c : Client)
  /-- FETCH_NOTICE, R151. -/
  | fetchNotice (c : Client)
  /-- REVOKE, R39. -/
  | revoke (c : Client)
  /-- FENCE, R58. -/
  | fence (c : Client)
  /-- UNFENCE, R59. -/
  | unfence (c : Client)
  /-- SET_IDLE_PLAN, R10. -/
  | setIdlePlan (c : Client)
  /-- EVICT, R171. -/
  | evict (c : Client)
  /-- HAND_OVER, R170. -/
  | handOver (c : Client)
  /-- SET_TICK, R78. -/
  | setTick (c : Client)
  /-- CLEAR_ALL, R172. -/
  | clearAll (c : Client)
  /-- SURVEY, R113. -/
  | survey (c : Client)
  /-- SET_CONVERTER, R131. -/
  | setConverter (c : Client)
  /-- TICK, R76. -/
  | tick
  /-- TERM_TICK, R80. -/
  | termTick (i : Slot)
  /-- LAPSE, R87. -/
  | lapse (i : Slot)
  /-- WAIT_TICK, R72. -/
  | waitTick (i : Slot)
  /-- WAIT_EXPIRY, R73. -/
  | waitExpiry (i : Slot)
  /-- SESSION_COUNT_TICK, R77. -/
  | sessionCountTick (c : Client)
  /-- SESSION_EXPIRY, R165. -/
  | sessionExpiry (c : Client)
  /-- LINE_SAMPLE, R96: for each line, whether a device on the board drives the wire, and the level that it drives
  or that the board leaves on the wire. -/
  | lineSample (driven level : LineSet)
  /-- GENERATOR_WRAP, R118, of the pulse group of the lease in a slot. -/
  | generatorWrap (i : Slot)
  /-- ACQUISITION_END, R138, with the voltage on the wire of the line in flight, in microvolts. -/
  | acquisitionEnd (microvolts : Int)
  /-- SAMPLE_CONVERSION_END, R138, with the voltage on VDD, in microvolts. -/
  | sampleConversionEnd (vdd : Int)
  /-- CONVERSION_COMPLETE, R140, with the voltage on VDD, in microvolts. -/
  | conversionComplete (vdd : Int)
  /-- POWER_ON_RESET, R174. -/
  | powerOnReset
  /-- RESET_PIN_RESET, R174. -/
  | resetPinReset
  /-- SUPPLY_LOW_RESET, R174. -/
  | supplyLowReset
  /-- RESET_RELEASE, R175, with the strap levels at that moment. -/
  | resetRelease (as1 as0 supv : Bool)
  /-- INITIALIZATION_END, R175. -/
  | initializationEnd
  /-- PULSE_CLOCK_COUNT, R117, of the pulse group of the lease in a slot. -/
  | pulseClockCount (i : Slot)
  /-- SUPPLY_LOSS, R174. -/
  | supplyLoss
  deriving DecidableEq, Repr

end Sys2Proof
end

