-- ==== Sys2Proof/Config.lean ====
section
/-!
DEFINITION. What the part fixes for every run, and the one free value of the model.
-/

namespace Sys2Proof.Config

/-- The internal oscillator runs at 8 MHz: 8000 periods in one millisecond (R76). -/
def periodsPerMillisecond : Nat := 8000

/-- Oscillator periods in one microsecond. -/
def periodsPerMicrosecond : Nat := 8

/-- The sampler takes one sample each millisecond (R94). -/
def samplePeriods : Nat := periodsPerMillisecond

/-- The initialization period after reset release, 2 ms (R175). -/
def initializationPeriods : Nat := 2 * periodsPerMillisecond

/-- The conversion phase of one converter sample, 12 µs (R138). -/
def conversionPeriods : Nat := 12 * periodsPerMicrosecond

/-- The INTERNAL reference voltage, 2.048 V, in microvolts (R130). -/
def internalReference : Int := 2048000

/-- The part code that the ATTACH response gives (R161). -/
def partCode : Byte := 0x24

/-- The revision that the ATTACH response gives (R161). -/
def revision : Byte := 0x01

/-- The most bytes of a frame that a port stores (R176, R179). -/
def storedFrameBytes : Nat := 45

/-- FREE VALUE. The code of a sample whose reference voltage is not positive, by the held voltage: R130 divides by the
reference voltage and gives no result there (log 10). -/
opaque codeWithoutReference : Int → Nat

end Sys2Proof.Config
end

