-- ==== Sys2Proof/Machine/State.lean ====
section
/-!
DEFINITION. The state of the GB-2408: every record that the guide gives each block (Table 0-1), as plain data, and its
value at reset. A field that a record has in some states only is a field of that state's constructor.
-/

namespace Sys2Proof.Machine

/-! ## Lines (chapter 1) -/

/-- A logic level at a pad (R3). -/
inductive Level where
  | low
  | high
  deriving DecidableEq, Repr

/-- A line mode (Table 1-2). -/
inductive Mode where
  | input
  | pushPull
  | openDrain
  | pulse
  | analog
  deriving DecidableEq, Repr

/-- A pull (R3). -/
inductive Pull where
  | none
  | up
  | down
  deriving DecidableEq, Repr

/-- A line configuration: mode, pull and level (section 1.2). -/
structure LineConfig where
  mode : Mode
  pull : Pull
  level : Level
  deriving DecidableEq, Repr

/-! ## The lease table (chapter 2) -/

/-- The kind of a lease (Table 2-1). -/
inductive Kind where
  | exclusive
  | shared
  deriving DecidableEq, Repr

/-- Why a tombstone's lease ended (Table 2-1). -/
inductive EndReason where
  | lapsed
  | revoked
  | waitExpired
  deriving DecidableEq, Repr

/-- The conversion state of a HELD lease (Table 2-1). -/
inductive ConvState where
  | none
  | queued
  | inFlight
  deriving DecidableEq, Repr

/-- The sense of a watched line (Table 5-1). -/
inductive Sense where
  | rising
  | falling
  | both
  deriving DecidableEq, Repr

/-- The status of a conversion result (R140). -/
inductive ResultStatus where
  | ok
  | disturbed
  | modeLost
  deriving DecidableEq, Repr

/-- What is kept of a lease from ACQUIRE until its entry becomes FREE (R21). -/
structure Claim where
  owner : Client
  kind : Kind
  lines : List Line
  term : Nat
  deriving DecidableEq, Repr

/-- A full pulse setting: one divider and period, and one high count per PULSE line in ascending line order (R23). -/
structure PulseSetting where
  divider : Nat
  period : Nat
  highs : List Nat
  deriving DecidableEq, Repr

/-- A pending pulse update: the setting it will give and which fields the command gave (R123). -/
structure PulseUpdate where
  setting : PulseSetting
  dividerGiven : Bool
  periodGiven : Bool
  highsGiven : Bool
  deriving DecidableEq, Repr

/-- The pulse group of a HELD lease: the setting in force, the generator of each PULSE line in ascending line order, and
the pending update (R23). -/
structure PulseGroup where
  setting : PulseSetting
  generators : List GenIx
  update : Option PulseUpdate
  deriving DecidableEq, Repr

/-- One watched line: its sense and its filter state (Table 5-1). -/
structure WatchedLine where
  line : Line
  sense : Sense
  stable : Level
  run : Nat
  deriving DecidableEq, Repr

/-- A watch (Table 5-1). -/
structure Watch where
  filter : Nat
  lines : List WatchedLine
  deriving DecidableEq, Repr

/-- A result slot; a MODE_LOST result holds no value (R140). -/
structure ConvResult where
  line : Line
  value : Option Nat
  status : ResultStatus
  overrun : Bool
  deriving DecidableEq, Repr

/-- A wait limit with its remaining wait (R72). -/
structure WaitLimit where
  limit : Nat
  remaining : Nat
  deriving DecidableEq, Repr

/-- The fields that a WAITING entry adds to its claim (Table 2-1). -/
structure Waiting where
  configs : List (Line × LineConfig)
  pulse : Option PulseSetting
  due : Option Nat
  wait : Option WaitLimit
  arrival : Nat
  deriving DecidableEq, Repr

/-- The fields that a HELD entry adds to its claim (Table 2-1). -/
structure Held where
  configs : List (Line × LineConfig)
  pulse : Option PulseGroup
  remaining : Nat
  due : Option Nat
  watch : Option Watch
  conv : ConvState
  result : Option ConvResult
  deriving DecidableEq, Repr

/-- The fields that a tombstone adds to its claim (R21, R28). -/
structure Tombstone where
  reason : EndReason
  result : Option ConvResult
  deriving DecidableEq, Repr

/-- The state of an entry, with the fields of that state (R18). -/
inductive EntryBody where
  | free
  | waiting (claim : Claim) (w : Waiting)
  | held (claim : Claim) (h : Held)
  | ended (claim : Claim) (t : Tombstone)
  deriving DecidableEq, Repr

/-- One record of the lease table (R18). -/
structure Entry where
  generation : Fin 8
  body : EntryBody
  deriving DecidableEq, Repr

/-! ## Pulse bank (chapter 6) -/

/-- The record of a RUNNING generator (Table 6-1). -/
structure Running where
  slot : Slot
  line : Line
  divider : Nat
  period : Nat
  high : Nat
  count : Nat
  prescale : Nat
  /-- The prescale position has returned to 0 and the pulse-clock count that it gives is not yet taken (R117, log 14). -/
  counting : Bool
  deriving DecidableEq, Repr

/-- A generator (R115). -/
inductive Generator where
  | free
  | running (r : Running)
  deriving DecidableEq, Repr

/-! ## Converter (chapter 7) -/

/-- The converter's reference setting (Table 7-1). -/
inductive Reference where
  | internal
  | supply
  deriving DecidableEq, Repr

/-- The converter's acquisition time setting (Table 7-1). -/
inductive AcqTime where
  | us4
  | us8
  | us16
  | us32
  deriving DecidableEq, Repr

/-- A queued conversion request (Table 7-3). -/
structure Request where
  slot : Slot
  line : Line
  samples : Nat
  deriving DecidableEq, Repr

/-- The two phases of a converter sample; a CONVERTING sample has its held voltage, in microvolts (R138). -/
inductive ConvPhase where
  | acquiring
  | converting (held : Int)
  deriving DecidableEq, Repr

/-- The request in flight (Table 7-3), with the oscillator periods it has spent in its phase. -/
structure InFlight where
  request : Request
  done : Nat
  sum : Nat
  reference : Reference
  acquisition : AcqTime
  disturbed : Bool
  discard : Bool
  phase : ConvPhase
  elapsed : Nat
  deriving DecidableEq, Repr

/-! ## Notice unit (chapter 8) -/

/-- The payload of a pending EDGE (R112). -/
structure EdgePayload where
  changed : LineSet
  count : Nat
  deriving DecidableEq, Repr

/-- The pending set of an entry: which of the six lease reasons are pending, with the payloads that the notice unit
stores (R146, R147). -/
structure PendingSet where
  granted : Bool
  due : Bool
  ended : Option EndReason
  edge : Option EdgePayload
  converted : Bool
  pulseApplied : Bool
  deriving DecidableEq, Repr

/-- No reason pending. -/
def PendingSet.empty : PendingSet := ⟨false, false, none, none, false, false⟩

/-! ## Clients and resets (chapter 9) -/

/-- How a client's most recent session ended (Table 9-3). -/
inductive LastEnd where
  | noneYet
  | detached
  | timedOut
  | evicted
  | cleared
  | reattached
  deriving DecidableEq, Repr

/-- A client record (Table 9-3). The count is absent while it is not running. -/
structure ClientRecord where
  attached : Bool
  epoch : BitVec 8
  timeout : Nat
  count : Option Nat
  attention : Bool
  lastEnd : LastEnd
  deriving DecidableEq, Repr

/-- The cause recorded for a reset (R174). -/
inductive ResetCause where
  | powerOn
  | resetPin
  | supplyLow
  deriving DecidableEq, Repr

/-- Where the part stands between supply loss and operation (R174, R175). -/
inductive Phase where
  /-- The supply is below 1.5 V and the part keeps no state. -/
  | noSupply
  /-- A reset is in progress. -/
  | inReset
  /-- The 2 ms initialization period, with the oscillator periods since reset release. -/
  | initializing (elapsed : Nat)
  /-- Both ports take frames. -/
  | running
  deriving DecidableEq, Repr

/-- The strap levels sampled at reset release (R175). -/
structure Straps where
  as1 : Bool
  as0 : Bool
  supv : Bool
  deriving DecidableEq, Repr

/-! ## Host ports and response slots (chapter 10) -/

/-- A command (Table 10-10). -/
inductive Command where
  | attach | detach | setAttention | ping
  | acquire | cancel | release | renew | acknowledge | reconfigure | describe | list
  | writeLevels | readLevels | setWatch | clearWatch | setPulse | convert | fetchNotice
  | revoke | fence | unfence | setIdlePlan | evict | handOver | setTick | clearAll | survey | setConverter
  deriving DecidableEq, Repr

/-- A status (Table 10-11). -/
inductive Status where
  | ok | queued | badCheck | badLength | unknownCommand | notAttached | staleSession | notSupervisor
  | badArgument | badLines | staleHandle | notOwner | wrongState | ended | tableFull | quota
  | busy | fenced | noGenerator | queueFull | mode | refused
  deriving DecidableEq, Repr

/-- A command accepted by its port and not yet taken (R182). -/
structure Accepted where
  tag : Byte
  command : Command
  body : List Byte
  deriving DecidableEq, Repr

/-- The four flags of a response (Table 10-5). -/
structure RespFlags where
  dropped : Bool
  previousUnread : Bool
  supervisor : Bool
  noticePending : Bool
  deriving DecidableEq, Repr

/-- A response (Table 10-4); its LEN and CHECK bytes are computed. -/
structure Response where
  status : Status
  tag : Byte
  flags : RespFlags
  body : List Byte
  deriving DecidableEq, Repr

/-- The state of a response slot (Table 10-2). -/
inductive SlotState where
  | none
  | busy (a : Accepted)
  | ready (r : Response)
  deriving DecidableEq, Repr

/-- A response slot with its two indications (R182, R179). -/
structure ResponseSlot where
  state : SlotState
  previousUnread : Bool
  dropped : Bool
  deriving DecidableEq, Repr

/-- A slot being shifted out: the bytes still to come (FFh follows the last), and whether they end with the CHECK byte
of a READY response (R184). -/
structure ReadOut where
  rest : List Byte
  throughCheck : Bool
  deriving DecidableEq, Repr

/-- A frame being collected: the stored bytes and the count of all bytes received (R176, R179). -/
structure FrameIn where
  bytes : List Byte
  count : Nat
  deriving DecidableEq, Repr

/-- The transaction on Port I's bus (R176, R177). -/
inductive BusState where
  /-- No transaction, or one that is not the part's. -/
  | idle
  /-- A START has come, and the address byte is being received. -/
  | addressing
  | writing (c : Client) (f : FrameIn)
  | reading (c : Client) (r : ReadOut)
  deriving DecidableEq, Repr

/-- Port I: its bus state and its outputs on I_SDA (log 6). -/
structure PortIState where
  bus : BusState
  acked : Bool
  out : List Byte
  deriving DecidableEq, Repr

/-- The chip-select window of Port S (R178). -/
inductive WindowState where
  /-- No window, or one in which S_DO stays high impedance to its end. -/
  | closed
  /-- S_SEL_N has fallen, and the opener is being received. -/
  | opening
  | ignored
  | command (c : Client) (f : FrameIn)
  | fetch (c : Client) (r : ReadOut)
  deriving DecidableEq, Repr

/-- Port S: its window and its output on S_DO (log 6). -/
structure PortSState where
  window : WindowState
  out : List Byte
  deriving DecidableEq, Repr

/-! ## The whole part -/

/-- Everything the part keeps, and the queue of commands that wait. -/
structure State where
  -- supply monitor and reset
  phase : Phase
  cause : ResetCause
  straps : Straps
  -- client table
  clients : Vector ClientRecord 8
  supervisor : Client
  -- ports and response slots
  slots : Vector ResponseSlot 8
  portI : PortIState
  portS : PortSState
  -- lease manager
  entries : Vector Entry 32
  waitList : List Slot
  fences : LineSet
  -- tick generator
  tickRate : Fin 8
  tickPosition : Nat
  /-- A tick is on its way to the entry in a slot (R77, log 4). -/
  entryTicks : Vector Bool 32
  /-- A tick is on its way to a client record (R77, log 4). -/
  clientTicks : Vector Bool 8
  -- line controller
  idlePlan : Vector LineConfig 24
  effective : Vector LineConfig 24
  -- line sampler
  lastSample : Vector Level 24
  samplePosition : Nat
  -- pulse bank
  generators : Vector Generator 4
  -- converter
  reference : Reference
  acquisition : AcqTime
  convQueue : List Request
  inFlight : Option InFlight
  -- notice unit
  notices : Vector PendingSet 32
  gained : Vector (Option Client) 8
  cursors : Vector Slot 8
  attnI : Bool
  attnS : Bool
  -- the model's own queue of commands (log 18)
  pending : List Instr
  deriving DecidableEq, Repr

/-- No command of the part ends in a fault: the spec names none, and every command is answered with a status (R29, R30).
So there is no constructor. -/
inductive Fault where
  deriving DecidableEq, Repr

/-- Why a command has no meaning in the model. -/
inductive Refusal where
  /-- Raised by `exec` for a row whose meaning is not written. No arm raises it; it would be safe, since the machine stops. -/
  | notModelled (mnemonic : String)
  deriving DecidableEq, Repr

/-- The configuration of every line after reset (R8, R17). -/
def LineConfig.reset : LineConfig := ⟨.input, .none, .low⟩

/-- A client record after reset (Table 9-3). -/
def ClientRecord.reset : ClientRecord := ⟨false, 0, 0, none, false, .noneYet⟩

/-- The part right after reset: the moment of reset release of a power-on reset, with the straps sampled as 0 (log 1). -/
def State.reset : State where
  phase := .initializing 0
  cause := .powerOn
  straps := ⟨false, false, false⟩
  clients := Vector.replicate 8 ClientRecord.reset
  supervisor := 0
  slots := Vector.replicate 8 ⟨.none, false, false⟩
  portI := ⟨.idle, false, []⟩
  portS := ⟨.closed, []⟩
  entries := Vector.replicate 32 ⟨0, .free⟩
  waitList := []
  fences := 0
  tickRate := 3
  tickPosition := 0
  entryTicks := Vector.replicate 32 false
  clientTicks := Vector.replicate 8 false
  idlePlan := Vector.replicate 24 LineConfig.reset
  effective := Vector.replicate 24 LineConfig.reset
  lastSample := Vector.replicate 24 .low
  samplePosition := 0
  generators := Vector.replicate 4 .free
  reference := .internal
  acquisition := .us8
  convQueue := []
  inFlight := none
  notices := Vector.replicate 32 PendingSet.empty
  gained := Vector.replicate 8 none
  cursors := Vector.replicate 8 31
  attnI := false
  attnS := false
  pending := []

end Sys2Proof.Machine
end

