-- ==== Sys2Proof/Machine/Codes.lean ====
section
/-!
DEFINITION. The byte layouts and code tables of chapter 10 (R186, R187, Tables 10-5, 10-6, 10-10 to 10-12), both ways:
what the part sends, and what it reads from a host's byte.
-/

namespace Sys2Proof.Machine

/-! ## Numbers, masks and the check byte -/

/-- A 2-byte number, most significant byte first (R187). -/
def bytes16 (n : Nat) : List Byte := [BitVec.ofNat 8 (n / 256), BitVec.ofNat 8 n]

/-- The 2-byte number of two bytes, most significant first (R187). -/
def number16 (hi lo : Byte) : Nat := hi.toNat * 256 + lo.toNat

/-- A line mask: 3 bytes, the first of which holds lines 23–16 (R187). -/
def maskBytes (m : LineSet) : List Byte :=
  [BitVec.ofNat 8 (m.toNat / 65536), BitVec.ofNat 8 (m.toNat / 256), BitVec.ofNat 8 m.toNat]

/-- A number as one byte. -/
def byteOf (n : Nat) : Byte := BitVec.ofNat 8 n

/-- A flag as one byte, 00h or 01h. -/
def boolByte (b : Bool) : Byte := if b then 1 else 0

/-- One shift of the CRC-8 remainder, with polynomial 2Fh (R186). -/
def crcShift (r : Byte) : Byte := if r.msb then (r <<< (1 : Nat)) ^^^ 0x2F else r <<< (1 : Nat)

/-- The CRC-8 remainder after one more byte (R186). -/
def crcByte (r b : Byte) : Byte :=
  crcShift (crcShift (crcShift (crcShift (crcShift (crcShift (crcShift (crcShift (r ^^^ b))))))))

/-- The check value over some bytes (R186). -/
def checkValue (bs : List Byte) : Byte := bs.foldl crcByte 0xFF

/-! ## Sets of lines -/

/-- The mask with one line. -/
def lineBit (l : Line) : LineSet := 1#24 <<< l.val

/-- The set of the lines of a list. -/
def lineSet (ls : List Line) : LineSet := ls.foldr (fun l m => lineBit l ||| m) 0

/-- The line is in the set. -/
def inSet (l : Line) (m : LineSet) : Bool := m.getLsbD l.val

/-- The lines of a set, in ascending order. -/
def linesOf (m : LineSet) : List Line := allLines.filter fun l => inSet l m

/-! ## Handles (R187) -/

/-- A handle byte: the generation in bits 7–5 and the slot in bits 4–0. -/
def handleByte (g : Fin 8) (i : Slot) : Byte := byteOf (g.val * 32 + i.val)

/-- The slot that a handle names. -/
def handleSlot (h : Byte) : Slot := Fin.ofNat 32 h.toNat

/-- The generation that a handle expects. -/
def handleGeneration (h : Byte) : Fin 8 := Fin.ofNat 8 (h.toNat / 32)

/-! ## Line configurations (Table 10-6) -/

def Mode.code : Mode → Nat
  | .input => 0
  | .pushPull => 1
  | .openDrain => 2
  | .pulse => 3
  | .analog => 4

def Pull.code : Pull → Nat
  | .none => 0
  | .up => 1
  | .down => 2

def Level.code : Level → Nat
  | .low => 0
  | .high => 1

/-- The configuration byte that the part sends; bits 1–0 are 0 (R187). -/
def LineConfig.byte (c : LineConfig) : Byte := byteOf (c.mode.code * 32 + c.pull.code * 8 + c.level.code * 4)

def modeOfCode : Nat → Option Mode
  | 0 => some .input
  | 1 => some .pushPull
  | 2 => some .openDrain
  | 3 => some .pulse
  | 4 => some .analog
  | _ => none

def pullOfCode : Nat → Option Pull
  | 0 => some .none
  | 1 => some .up
  | 2 => some .down
  | _ => none

/-- A level from one bit. -/
def levelOfBool (b : Bool) : Level := if b then .high else .low

/-- The configuration that a host's byte names; bits 1–0 are not examined (R187). Mode codes 5–7 and pull code 3 name
none. -/
def configOfByte (b : Byte) : Option LineConfig :=
  match modeOfCode (b.toNat / 32), pullOfCode (b.toNat / 8 % 4) with
  | some m, some p => some ⟨m, p, levelOfBool (b.getLsbD 2)⟩
  | _, _ => none

/-! ## Value codes (Table 10-12) -/

def Kind.code : Kind → Byte
  | .exclusive => 0
  | .shared => 1

def kindOfByte (b : Byte) : Option Kind :=
  if b = 0 then some .exclusive else if b = 1 then some .shared else none

/-- The wait choice: `true` is MAY_WAIT. -/
def mayWaitOfByte (b : Byte) : Option Bool := if b = 0 then some false else if b = 1 then some true else none

/-- The code of an entry state. -/
def EntryBody.stateCode : EntryBody → Nat
  | .free => 0
  | .waiting _ _ => 1
  | .held _ _ => 2
  | .ended _ _ => 3

def EndReason.code : EndReason → Byte
  | .lapsed => 1
  | .revoked => 2
  | .waitExpired => 3

def ConvState.code : ConvState → Byte
  | .none => 0
  | .queued => 1
  | .inFlight => 2

def levelOfByte (b : Byte) : Option Level := if b = 0 then some .low else if b = 1 then some .high else none

def Sense.code : Sense → Byte
  | .rising => 1
  | .falling => 2
  | .both => 3

def senseOfByte (b : Byte) : Option Sense :=
  if b = 1 then some .rising else if b = 2 then some .falling else if b = 3 then some .both else none

/-- The attention enable: `true` is ENABLED. -/
def attentionOfByte (b : Byte) : Option Bool := if b = 0 then some false else if b = 1 then some true else none

/-- The parts of DESCRIBE (Table 2-5). -/
inductive Part where
  | record
  | lines
  | pulse
  | watch
  | result
  deriving DecidableEq, Repr

def partOfByte (b : Byte) : Option Part :=
  if b = 0 then some .record else if b = 1 then some .lines else if b = 2 then some .pulse
  else if b = 3 then some .watch else if b = 4 then some .result else none

def Part.code : Part → Byte
  | .record => 0
  | .lines => 1
  | .pulse => 2
  | .watch => 3
  | .result => 4

/-- The scope of LIST: `true` is ALL. -/
def scopeOfByte (b : Byte) : Option Bool := if b = 0 then some false else if b = 1 then some true else none

/-- The eight lines of a bank, ascending (Table 1-1), from the bank code. -/
def bankLines (b : Byte) : Option (List Line) :=
  if b.toNat < 3 then some (allLines.filter fun l => l.val / 8 = b.toNat) else none

def Reference.code : Reference → Byte
  | .internal => 0
  | .supply => 1

def referenceOfByte (b : Byte) : Option Reference :=
  if b = 0 then some .internal else if b = 1 then some .supply else none

def AcqTime.code : AcqTime → Byte
  | .us4 => 0
  | .us8 => 1
  | .us16 => 2
  | .us32 => 3

def acqTimeOfByte (b : Byte) : Option AcqTime :=
  if b = 0 then some .us4 else if b = 1 then some .us8 else if b = 2 then some .us16
  else if b = 3 then some .us32 else none

/-- The acquisition time in oscillator periods (Table 7-1). -/
def AcqTime.periods : AcqTime → Nat
  | .us4 => 4 * Config.periodsPerMicrosecond
  | .us8 => 8 * Config.periodsPerMicrosecond
  | .us16 => 16 * Config.periodsPerMicrosecond
  | .us32 => 32 * Config.periodsPerMicrosecond

def ResetCause.code : ResetCause → Byte
  | .powerOn => 1
  | .resetPin => 2
  | .supplyLow => 3

def LastEnd.code : LastEnd → Byte
  | .noneYet => 0
  | .detached => 1
  | .timedOut => 2
  | .evicted => 3
  | .cleared => 4
  | .reattached => 5

/-- The last end reason RESET, which only the ATTACH response reports (R168). -/
def lastEndResetCode : Byte := 6

/-- The samples of a CONVERT (R134). -/
def samplesOfByte (b : Byte) : Option Nat := if b.toNat ∈ [1, 2, 4, 8] then some b.toNat else none

/-- The value is one of the eight dividers (R117). -/
def isDivider (n : Nat) : Bool := n ∈ [1, 2, 4, 8, 16, 32, 64, 128]

/-- The tick interval of a rate code, in milliseconds (Table 4-1). -/
def tickMilliseconds : Fin 8 → Nat
  | 0 => 1
  | 1 => 2
  | 2 => 5
  | 3 => 10
  | 4 => 20
  | 5 => 50
  | 6 => 100
  | 7 => 200

/-- The tick interval of a rate code, in oscillator periods (R76). -/
def tickPeriods (r : Fin 8) : Nat := tickMilliseconds r * Config.periodsPerMillisecond

/-- The status byte of a result: the status in bits 1–0, OVERRUN in bit 7 (R189). -/
def ConvResult.statusByte (r : ConvResult) : Byte :=
  byteOf ((match r.status with | .ok => 0 | .disturbed => 1 | .modeLost => 2) + if r.overrun then 128 else 0)

/-- The line, the status byte and the value of a result, 0000h where it holds none (R189). -/
def ConvResult.lineStatusValue (r : ConvResult) : List Byte :=
  [byteOf r.line.val, r.statusByte] ++ bytes16 (r.value.getD 0)

/-! ## Statuses, flags and commands -/

def Status.code : Status → Byte
  | .ok => 0x00
  | .queued => 0x01
  | .badCheck => 0x02
  | .badLength => 0x03
  | .unknownCommand => 0x04
  | .notAttached => 0x05
  | .staleSession => 0x06
  | .notSupervisor => 0x07
  | .badArgument => 0x08
  | .badLines => 0x09
  | .staleHandle => 0x0A
  | .notOwner => 0x0B
  | .wrongState => 0x0C
  | .ended => 0x0D
  | .tableFull => 0x0E
  | .quota => 0x0F
  | .busy => 0x10
  | .fenced => 0x11
  | .noGenerator => 0x12
  | .queueFull => 0x13
  | .mode => 0x14
  | .refused => 0x15

/-- The FLAGS byte (Table 10-5). -/
def RespFlags.byte (f : RespFlags) : Byte :=
  byteOf ((if f.dropped then 8 else 0) + (if f.previousUnread then 4 else 0) + (if f.supervisor then 2 else 0)
    + if f.noticePending then 1 else 0)

/-- The code of a command (Table 10-10). -/
def Command.code : Command → Byte
  | .attach => 0x01
  | .detach => 0x02
  | .setAttention => 0x03
  | .ping => 0x04
  | .acquire => 0x10
  | .cancel => 0x11
  | .release => 0x12
  | .renew => 0x13
  | .acknowledge => 0x14
  | .reconfigure => 0x15
  | .describe => 0x16
  | .list => 0x17
  | .writeLevels => 0x20
  | .readLevels => 0x21
  | .setWatch => 0x22
  | .clearWatch => 0x23
  | .setPulse => 0x28
  | .convert => 0x30
  | .fetchNotice => 0x38
  | .revoke => 0x40
  | .fence => 0x41
  | .unfence => 0x42
  | .setIdlePlan => 0x43
  | .evict => 0x44
  | .handOver => 0x45
  | .setTick => 0x46
  | .clearAll => 0x47
  | .survey => 0x48
  | .setConverter => 0x49

/-- Every command of Table 10-10. -/
def allCommands : List Command :=
  [.attach, .detach, .setAttention, .ping, .acquire, .cancel, .release, .renew, .acknowledge, .reconfigure, .describe,
    .list, .writeLevels, .readLevels, .setWatch, .clearWatch, .setPulse, .convert, .fetchNotice, .revoke, .fence,
    .unfence, .setIdlePlan, .evict, .handOver, .setTick, .clearAll, .survey, .setConverter]

/-- The command of a code, if the code is one of Table 10-10 (R181). -/
def commandOfByte (b : Byte) : Option Command := allCommands.find? fun c => c.code = b

/-- The bytes of a response, MARK to CHECK (Table 10-4, R185). -/
def Response.bytes (r : Response) : List Byte :=
  let counted := [byteOf (4 + r.body.length), r.status.code, r.tag, r.flags.byte] ++ r.body
  0xC3 :: counted ++ [checkValue counted]

end Sys2Proof.Machine
end

