-- ==== Sys2Proof/Machine/Operands.lean ====
section
/-!
DEFINITION. How a command's body is read: the argument checks that need only the command itself (R29, stage 2), with the
status that each failure gives. A check answers the operands or the refusal.
-/

namespace Sys2Proof.Machine

/-- What a command is answered: a status and a response body (R30). -/
structure Answer where
  status : Status
  body : List Byte
  deriving DecidableEq, Repr

/-- A check either gives its result or refuses with an answer. -/
abbrev Check := Except Answer

/-- Refuse with an empty body (R30). -/
def refuse {α : Type} (st : Status) : Check α := .error ⟨st, []⟩

/-- Go on if the condition holds, and refuse with the status otherwise. -/
def ensure (ok : Bool) (st : Status) : Check Unit := if ok then .ok () else refuse st

/-- Take the value, or refuse with the status where there is none. -/
def need {α : Type} (x : Option α) (st : Status) : Check α :=
  match x with
  | some a => .ok a
  | none => refuse st

/-- An accepted command's answer. -/
def okWith (body : List Byte) : Answer := ⟨.ok, body⟩

/-! ## Bodies of fixed form -/

/-- A body with no bytes. -/
def emptyBody (body : List Byte) : Check Unit := ensure body.isEmpty .badArgument

/-- A body of one byte. -/
def oneByte : List Byte → Check Byte
  | [b] => .ok b
  | _ => refuse .badArgument

/-- A body of two bytes. -/
def twoBytes : List Byte → Check (Byte × Byte)
  | [a, b] => .ok (a, b)
  | _ => refuse .badArgument

/-- A body of three bytes. -/
def threeBytes : List Byte → Check (Byte × Byte × Byte)
  | [a, b, c] => .ok (a, b, c)
  | _ => refuse .badArgument

/-- A body that begins with a handle. -/
def handleFirst : List Byte → Check (Byte × List Byte)
  | h :: rest => .ok (h, rest)
  | [] => refuse .badArgument

/-- Bytes divided into whole pairs. -/
def pairsOf : List Byte → Option (List (Byte × Byte))
  | [] => some []
  | [_] => none
  | a :: b :: rest => (pairsOf rest).map fun ps => (a, b) :: ps

/-- Bytes divided into whole 2-byte numbers. -/
def numbersOf (bs : List Byte) : Option (List Nat) := (pairsOf bs).map fun ps => ps.map fun p => number16 p.1 p.2

/-- The line that a byte names, if any (R1). -/
def lineOfByte (b : Byte) : Option Line := if h : b.toNat < 24 then some ⟨b.toNat, h⟩ else none

/-- Every element's image, or none if one has none. -/
def mapAll {α β : Type} (f : α → Option β) : List α → Option (List β)
  | [] => some []
  | a :: as =>
    match f a, mapAll f as with
    | some b, some bs => some (b :: bs)
    | _, _ => none

/-- No element twice. -/
def allDistinct (ls : List Line) : Bool := decide ls.Nodup

/-- The lines that a command names, refused with BAD_LINES for a number above 23 or a line named twice. -/
def distinctLines (bs : List Byte) : Check (List Line) := do
  let ls ← need (mapAll lineOfByte bs) .badLines
  ensure (allDistinct ls) .badLines
  pure ls

/-- The number of lines or pairs is in a range, or BAD_LINES. -/
def countWithin (n lo hi : Nat) : Check Unit := ensure (decide (lo ≤ n ∧ n ≤ hi)) .badLines

/-! ## Configurations -/

/-- The mode is allowed on the line by Table 1-2; PULSE only where `pulseToo` (R2). -/
def modeAllowed (pulseToo : Bool) (l : Line) (m : Mode) : Bool :=
  match m with
  | .input => true
  | .pushPull => true
  | .openDrain => true
  | .pulse => pulseToo && (8 ≤ l.val && l.val ≤ 15)
  | .analog => 16 ≤ l.val

/-- The configurations of a list of pairs, keyed by line. -/
abbrev LineConfigs := List (Line × LineConfig)

/-- The pairs of lines with their configurations are all allowed, or MODE. -/
def modesAllowed (pulseToo : Bool) (ps : LineConfigs) : Check Unit :=
  ensure (ps.all fun p => modeAllowed pulseToo p.1 p.2.mode) .mode

/-- The PULSE lines of some configurations, in their order. -/
def pulseLines (ps : LineConfigs) : List Line := (ps.filter fun p => p.2.mode = .pulse).map Prod.fst

/-- The configuration that a list gives a line. -/
def configFor (ps : LineConfigs) (l : Line) : Option LineConfig := ps.lookup l

/-- The same lines and configurations, in ascending line order (R21). -/
def ascending (ps : LineConfigs) : LineConfigs := allLines.filterMap fun l => (configFor ps l).map fun c => (l, c)

/-- The lines of a list in ascending order. -/
def ascendingLines (ls : List Line) : List Line := allLines.filter fun l => ls.contains l

/-! ## ACQUIRE (R31, R32, R188) -/

/-- The operands of an ACQUIRE that passes its argument checks. -/
structure AcquireRequest where
  kind : Kind
  mayWait : Bool
  term : Nat
  due : Option Nat
  waitLimit : Option Nat
  lines : List Line
  configs : LineConfigs
  pulse : Option PulseSetting
  deriving DecidableEq, Repr

/-- The 2-byte field that an option bit announces, and what follows it. -/
def optional16 (present : Bool) (bs : List Byte) : Check (Option Nat × List Byte) :=
  if present then
    match bs with
    | hi :: lo :: rest => .ok (some (number16 hi lo), rest)
    | _ => refuse .badArgument
  else .ok (none, bs)

/-- The first `n` bytes and the rest, or BAD_ARGUMENT where there are fewer. -/
def splitBytes (n : Nat) (bs : List Byte) : Check (List Byte × List Byte) :=
  if n ≤ bs.length then .ok (bs.take n, bs.drop n) else refuse .badArgument

/-- The pulse group part of an ACQUIRE body: divider, period and one high count for each of `k` PULSE lines (R31). -/
def pulseSettingOf (k : Nat) : List Byte → Check PulseSetting
  | d :: ph :: pl :: rest => do
    let highs ← need (numbersOf rest) .badArgument
    ensure (decide (highs.length = k)) .badArgument
    ensure (isDivider d.toNat) .badArgument
    ensure (decide (2 ≤ number16 ph pl)) .badArgument
    ensure (highs.all fun h => decide (h ≤ number16 ph pl)) .badArgument
    pure ⟨d.toNat, number16 ph pl, highs⟩
  | _ => refuse .badArgument

/-- The pulse group of an ACQUIRE: present exactly when some line is PULSE, and for at most 4 of them (R31). -/
def pulsePartOf (optionBit : Bool) (k : Nat) (rest : List Byte) : Check (Option PulseSetting) := do
  ensure (decide (k ≤ 4)) .badArgument
  if optionBit then
    ensure (decide (1 ≤ k)) .badArgument
    let p ← pulseSettingOf k rest
    pure (some p)
  else
    ensure (decide (k = 0)) .badArgument
    ensure rest.isEmpty .badArgument
    pure none

/-- The configuration bytes of an ACQUIRE, one per listed line for an EXCLUSIVE kind and none for SHARED (R188). -/
def acquireConfigs (kind : Kind) (n : Nat) (bs : List Byte) : Check (List LineConfig × List Byte) :=
  match kind with
  | .exclusive => do
    let (cs, rest) ← splitBytes n bs
    let cfgs ← need (mapAll configOfByte cs) .badArgument
    pure (cfgs, rest)
  | .shared => pure ([], bs)

/-- The argument checks of an ACQUIRE body, in the order BAD_ARGUMENT, BAD_LINES, MODE (R31, R32, R188). -/
def acquireRequest (body : List Byte) : Check AcquireRequest :=
  match body with
  | kindB :: waitB :: options :: n :: th :: tl :: rest => do
    let kind ← need (kindOfByte kindB) .badArgument
    let mayWait ← need (mayWaitOfByte waitB) .badArgument
    let (due, rest) ← optional16 (options.getLsbD 0) rest
    let (waitLimit, rest) ← optional16 (options.getLsbD 1) rest
    let (lineBytes, rest) ← splitBytes n.toNat rest
    let (cfgs, rest) ← acquireConfigs kind n.toNat rest
    let k := (cfgs.filter fun c => c.mode = .pulse).length
    let pulse ← pulsePartOf (options.getLsbD 2) k rest
    let term := number16 th tl
    ensure (decide (1 ≤ term)) .badArgument
    ensure (match due with | none => true | some d => decide (1 ≤ d ∧ d < term)) .badArgument
    ensure (match waitLimit with | none => true | some w => !mayWait || decide (1 ≤ w)) .badArgument
    countWithin n.toNat 1 8
    let lines ← distinctLines lineBytes
    let configs := lines.zip cfgs
    modesAllowed true configs
    pure ⟨kind, mayWait, term, due, if mayWait then waitLimit else none, ascendingLines lines, ascending configs, pulse⟩
  | _ => refuse .badArgument

/-! ## The other bodies with lists -/

/-- RENEW after its handle: nothing, a new term, or a new term and a new due mark (R84). -/
def renewTerm : List Byte → Check (Option (Nat × Option Nat))
  | [] => .ok none
  | [th, tl] => do
    ensure (decide (1 ≤ number16 th tl)) .badArgument
    pure (some (number16 th tl, none))
  | [th, tl, dh, dl] => do
    ensure (decide (1 ≤ number16 th tl)) .badArgument
    ensure (decide (1 ≤ number16 dh dl ∧ number16 dh dl < number16 th tl)) .badArgument
    pure (some (number16 th tl, some (number16 dh dl)))
  | _ => refuse .badArgument

/-- Pairs of a line and a coded value: BAD_ARGUMENT for a part of a pair or a code that names no value. -/
def codedPairs {α : Type} (code : Byte → Option α) (bs : List Byte) : Check (List (Byte × α)) := do
  let ps ← need (pairsOf bs) .badArgument
  need (mapAll (fun p : Byte × Byte => (code p.2).map fun v => (p.1, v)) ps) .badArgument

/-- The lines of coded pairs, with their values: BAD_LINES for a bad number, a duplicate, or a bad count. -/
def lineValues {α : Type} (lo hi : Nat) (ps : List (Byte × α)) : Check (List (Line × α)) := do
  countWithin ps.length lo hi
  let ls ← distinctLines (ps.map Prod.fst)
  pure (ls.zip (ps.map Prod.snd))

/-- RECONFIGURE after its handle, up to stage 2 of its checks (R40). -/
def reconfigurePairs (bs : List Byte) : Check LineConfigs := do
  let ps ← codedPairs configOfByte bs
  let ps ← lineValues 1 8 ps
  modesAllowed false ps
  pure ps

/-- WRITE LEVELS after its handle, up to stage 2 (R97). -/
def levelPairs (bs : List Byte) : Check (List (Line × Level)) := do
  let ps ← codedPairs levelOfByte bs
  lineValues 1 8 ps

/-- SET WATCH after its handle, up to stage 2: the filter length, and the lines with their senses (R103). -/
def watchRequest : List Byte → Check (Nat × List (Line × Sense))
  | f :: bs => do
    let ps ← codedPairs senseOfByte bs
    ensure (decide (1 ≤ f.toNat ∧ f.toNat ≤ 15)) .badArgument
    let ls ← lineValues 1 8 ps
    pure (f.toNat, ls)
  | [] => refuse .badArgument

/-- SET IDLE PLAN, up to stage 2 (R9). -/
def idlePlanPairs (bs : List Byte) : Check LineConfigs := do
  let ps ← codedPairs configOfByte bs
  ensure (decide (1 ≤ ps.length ∧ ps.length ≤ 16)) .badArgument
  let ps ← lineValues 1 16 ps
  modesAllowed false ps
  pure ps

/-- The line list of FENCE and UNFENCE (R58). -/
def fenceLines (bs : List Byte) : Check (List Line) := do
  ensure (!bs.isEmpty) .badLines
  distinctLines bs

/-- The fields that a SET PULSE gives (R122). -/
structure PulseRequest where
  divider : Option Nat
  period : Option Nat
  highs : Option (List Nat)
  deriving DecidableEq, Repr

/-- The divider of a SET PULSE, if its bit is given, and what follows. -/
def pulseDivider (given : Bool) (bs : List Byte) : Check (Option Nat × List Byte) :=
  if given then
    match bs with
    | d :: rest => if isDivider d.toNat then .ok (some d.toNat, rest) else refuse .badArgument
    | [] => refuse .badArgument
  else .ok (none, bs)

/-- SET PULSE after its handle, up to stage 2 (R122). Bits 7–3 of the given byte, which Table 10-9 does not name, are not
examined (DESIGN CHOICE, log 28). -/
def pulseRequest : List Byte → Check PulseRequest
  | given :: bs => do
    ensure (given.getLsbD 0 || given.getLsbD 1 || given.getLsbD 2) .badArgument
    let (divider, rest) ← pulseDivider (given.getLsbD 0) bs
    let (period, rest) ← optional16 (given.getLsbD 1) rest
    ensure (match period with | none => true | some p => decide (2 ≤ p)) .badArgument
    if given.getLsbD 2 then
      let highs ← need (numbersOf rest) .badArgument
      pure ⟨divider, period, some highs⟩
    else
      ensure rest.isEmpty .badArgument
      pure ⟨divider, period, none⟩
  | [] => refuse .badArgument

/-- A client number (R170, R171). -/
def clientOfByte (b : Byte) : Option Client := if h : b.toNat < 8 then some ⟨b.toNat, h⟩ else none

/-- A tick rate code (R78). -/
def tickRateOfByte (b : Byte) : Option (Fin 8) := if h : b.toNat < 8 then some ⟨b.toNat, h⟩ else none

/-- CONVERT after its handle, up to stage 2 (R134). -/
def convertRequest : List Byte → Check (Line × Nat)
  | [l, n] => do
    let samples ← need (samplesOfByte n) .badArgument
    let line ← need (lineOfByte l) .badLines
    pure (line, samples)
  | _ => refuse .badArgument

end Sys2Proof.Machine
end

