-- ==== Sys2Proof/Machine/Ops.lean ====
section
/-!
DEFINITION. The named operations over the records of the part: reading and replacing one record, posting and discarding
notices, and the reads of the lease table that several commands share.
-/

namespace Sys2Proof.Machine

/-- The part is out of reset: its clocked blocks run (R76, R94, R175). -/
def Phase.active : Phase → Bool
  | .noSupply => false
  | .inReset => false
  | .initializing _ => true
  | .running => true

/-! ## One record of a table -/

/-- The entry in a slot of the lease table (R18). -/
def State.entry (s : State) (i : Slot) : Entry := s.entries[i]

/-- Replace the entry in a slot. -/
def State.setEntry (s : State) (i : Slot) (e : Entry) : State := { s with entries := s.entries.set i e }

/-- Replace what a slot holds, keeping its generation (R19). -/
def State.setBody (s : State) (i : Slot) (b : EntryBody) : State := s.setEntry i ⟨(s.entry i).generation, b⟩

/-- A client's record (R159). -/
def State.client (s : State) (c : Client) : ClientRecord := s.clients[c]

/-- Replace a client's record. -/
def State.setClient (s : State) (c : Client) (r : ClientRecord) : State := { s with clients := s.clients.set c r }

/-- A client's response slot (Table 10-2). -/
def State.slot (s : State) (c : Client) : ResponseSlot := s.slots[c]

/-- Replace a client's response slot. -/
def State.setSlot (s : State) (c : Client) (r : ResponseSlot) : State := { s with slots := s.slots.set c r }

/-- The pending set of an entry (R146). -/
def State.noticesOf (s : State) (i : Slot) : PendingSet := s.notices[i]

/-- Replace the pending set of an entry. -/
def State.setNotices (s : State) (i : Slot) (p : PendingSet) : State := { s with notices := s.notices.set i p }

/-! ## Reading the lease table -/

/-- The claim of an entry, absent when it is FREE. -/
def EntryBody.claim : EntryBody → Option Claim
  | .free => none
  | .waiting cl _ => some cl
  | .held cl _ => some cl
  | .ended cl _ => some cl

/-- The claim that an entry holds as a HELD lease, if it is one. -/
def EntryBody.heldClaim : EntryBody → Option Claim
  | .held cl _ => some cl
  | _ => none

/-- The client owns the entry: it is not FREE and its owner is the client. -/
def EntryBody.ownedBy (b : EntryBody) (c : Client) : Bool :=
  match b.claim with
  | none => false
  | some cl => cl.owner = c

/-- The slots of the entries that a client owns, ascending. -/
def State.ownedSlots (s : State) (c : Client) : List Slot := allSlots.filter fun i => (s.entry i).body.ownedBy c

/-- The slots of the entries that are not FREE, ascending. -/
def State.usedSlots (s : State) : List Slot := allSlots.filter fun i => (s.entry i).body ≠ .free

/-- The line is in the HELD EXCLUSIVE lease of this entry. -/
def EntryBody.holdsExclusive (b : EntryBody) (l : Line) : Bool :=
  match b.heldClaim with
  | none => false
  | some cl => cl.kind = .exclusive && cl.lines.contains l

/-- The line is in the HELD SHARED lease of this entry. -/
def EntryBody.holdsShared (b : EntryBody) (l : Line) : Bool :=
  match b.heldClaim with
  | none => false
  | some cl => cl.kind = .shared && cl.lines.contains l

/-- The slot of a HELD EXCLUSIVE lease that contains the line (R5); by R56 there is at most one. -/
def State.exclusiveSlot (s : State) (l : Line) : Option Slot :=
  allSlots.find? fun i => (s.entry i).body.holdsExclusive l

/-- The count of HELD SHARED leases that contain the line (R114). -/
def State.sharedCount (s : State) (l : Line) : Nat := (allSlots.filter fun i => (s.entry i).body.holdsShared l).length

/-- The entry's place in the wait list, counting from 1 at the oldest (R65). -/
def State.waitPosition (s : State) (i : Slot) : Nat := s.waitList.idxOf i + 1

/-! ## Notices (R148, R157) -/

/-- Post GRANTED (R71). -/
def State.postGranted (s : State) (i : Slot) : State := s.setNotices i { s.noticesOf i with granted := true }

/-- Post DUE (R82). -/
def State.postDue (s : State) (i : Slot) : State := s.setNotices i { s.noticesOf i with due := true }

/-- Post ENDED with its end reason (R45). -/
def State.postEnded (s : State) (i : Slot) (r : EndReason) : State :=
  s.setNotices i { s.noticesOf i with ended := some r }

/-- Post CONVERTED (R140). -/
def State.postConverted (s : State) (i : Slot) : State := s.setNotices i { s.noticesOf i with converted := true }

/-- Post PULSE_APPLIED (R124). -/
def State.postPulseApplied (s : State) (i : Slot) : State := s.setNotices i { s.noticesOf i with pulseApplied := true }

/-- The EDGE payload after one more matching flip: the line joins the set and the count rises by 1, staying at 255
(R107, R148). -/
def edgeAfter (p : Option EdgePayload) (l : Line) : EdgePayload :=
  match p with
  | none => ⟨lineBit l, 1⟩
  | some e => ⟨e.changed ||| lineBit l, min 255 (e.count + 1)⟩

/-- The pending set after EDGE is posted for a line (R107). -/
def PendingSet.withEdge (p : PendingSet) (l : Line) : PendingSet := { p with edge := some (edgeAfter p.edge l) }

/-- Discard an entry's whole pending set (R157). -/
def State.discardNotices (s : State) (i : Slot) : State := s.setNotices i PendingSet.empty

/-! ## Checks on a handle and on the state of an entry (R20, R26–R28, R30) -/

/-- The refusal WRONG_STATE, with the entry's state and kind (R191). -/
def wrongState {α : Type} (b : EntryBody) (k : Kind) : Check α := .error ⟨.wrongState, [byteOf b.stateCode, k.code]⟩

/-- The refusal ENDED, with the entry's end reason (R191). -/
def endedRefusal {α : Type} (r : EndReason) : Check α := .error ⟨.ended, [r.code]⟩

/-- The slot that a client's handle names: STALE_HANDLE, then NOT_OWNER unless the client is excepted (R20). -/
def State.resolve (s : State) (c : Client) (excepted : Bool) (h : Byte) : Check Slot :=
  let e := s.entry (handleSlot h)
  match e.body.claim with
  | none => refuse .staleHandle
  | some cl => do
    ensure (e.generation = handleGeneration h) .staleHandle
    ensure (cl.owner = c || excepted) .notOwner
    pure (handleSlot h)

/-- The entry is HELD; WRONG_STATE on a WAITING entry, ENDED on a tombstone (R26, R28). -/
def EntryBody.needHeld : EntryBody → Check (Claim × Held)
  | .free => refuse .staleHandle
  | .waiting cl w => wrongState (.waiting cl w) cl.kind
  | .held cl h => .ok (cl, h)
  | .ended _ t => endedRefusal t.reason

/-- The entry is HELD and EXCLUSIVE; a HELD SHARED lease is refused with WRONG_STATE (R27). -/
def EntryBody.needExclusive (b : EntryBody) : Check (Claim × Held) := do
  let (cl, h) ← b.needHeld
  if cl.kind = .exclusive then pure (cl, h) else wrongState (.held cl h) cl.kind

/-- The entry is WAITING; WRONG_STATE on a HELD entry, ENDED on a tombstone (R37). -/
def EntryBody.needWaiting : EntryBody → Check Unit
  | .free => refuse .staleHandle
  | .waiting _ _ => .ok ()
  | .held cl h => wrongState (.held cl h) cl.kind
  | .ended _ t => endedRefusal t.reason

/-- The entry is a tombstone; WRONG_STATE otherwise (R38). -/
def EntryBody.needEnded : EntryBody → Check EndReason
  | .free => refuse .staleHandle
  | .waiting cl w => wrongState (.waiting cl w) cl.kind
  | .held cl h => wrongState (.held cl h) cl.kind
  | .ended _ t => .ok t.reason

/-- The client holds supervision (R29, stage 1). -/
def State.needSupervisor (s : State) (c : Client) : Check Unit := ensure (s.supervisor = c) .notSupervisor

/-! ## Accepting and refusing as a whole -/

/-- A command's effect: the checks read the state, a refusal changes nothing, and an accepted command acts on what the
checks gave (R29, R30). -/
def answerWith {α : Type} (s : State) (chk : Check α) (act : α → State × Answer) : State × Answer :=
  match chk with
  | .error a => (s, a)
  | .ok x => act x

end Sys2Proof.Machine
end

