-- ==== Sys2Proof/Machine/Clock.lean ====
section
/-!
DEFINITION. When the clocked rows come (log 3): the position that each clocked block has reached in its interval, counted in
periods of the 8 MHz oscillator, and whether the interval has ended.
-/

namespace Sys2Proof.Machine

/-- The tick interval has ended (R76). -/
def State.tickDue (s : State) : Bool := tickPeriods s.tickRate ≤ s.tickPosition

/-- The sample interval has ended (R94). -/
def State.sampleDue (s : State) : Bool := Config.samplePeriods ≤ s.samplePosition

/-- The oscillator periods of the converter's present phase (R138). -/
def InFlight.phasePeriods (r : InFlight) : Nat :=
  match r.phase with
  | .acquiring => r.acquisition.periods
  | .converting _ => Config.conversionPeriods

/-- The converter's phase has ended (R138). -/
def State.converterDue (s : State) : Bool :=
  match s.inFlight with
  | none => false
  | some r => r.phasePeriods ≤ r.elapsed

/-- The initialization period has ended (R175). -/
def Phase.due : Phase → Bool
  | .initializing n => Config.initializationPeriods ≤ n
  | _ => false

/-- The generator's prescale position has reached the divider and returned to 0, and the pulse-clock count is to be taken
(R117). -/
def Generator.countDue : Generator → Bool
  | .free => false
  | .running r => r.counting

/-- The entry keeps a countdown that a tick lowers: a HELD lease's term, or a WAITING entry's wait limit (R77). -/
def EntryBody.countsDown : EntryBody → Bool
  | .held _ _ => true
  | .waiting _ w => w.wait.isSome
  | _ => false

/-- A tick on its way has still to reach the running countdown of the entry in a slot (R77). -/
def State.entryTickDue (s : State) (i : Slot) : Bool := s.entryTicks[i] && (s.entry i).body.countsDown

/-- A tick on its way has still to reach the running session count of a client (R77). -/
def State.clientTickDue (s : State) (c : Client) : Bool := s.clientTicks[c] && (s.client c).count.isSome

/-- Some clocked row is due now, or a tick has still to reach a running countdown. -/
def State.someDue (s : State) : Bool :=
  s.tickDue || s.sampleDue || s.converterDue || s.phase.due || (allGenerators.any fun g => s.generators[g].countDue) ||
    allSlots.any s.entryTickDue || allClients.any s.clientTickDue

end Sys2Proof.Machine
end

