-- ==== Sys2Proof/Machine/Flags.lean ====
section
/-!
DEFINITION. What the part computes from its notices: the NOTICE_PENDING and SUPERVISOR flags of a response (R154, R169,
R185) and the two attention lines (R156); and the writing of a response into a slot (R182).
-/

namespace Sys2Proof.Machine

/-- The client has a pending notice: a client reason, or a reason in the pending set of an entry it owns (R154). -/
def State.hasNotice (s : State) (c : Client) : Bool :=
  s.gained[c].isSome || allSlots.any fun i => (s.entry i).body.ownedBy c && (s.noticesOf i ≠ PendingSet.empty)

/-- The client counts toward its port's attention line: it is ATTACHED, with attention enabled and a notice pending
(R156). -/
def State.wantsAttention (s : State) (c : Client) : Bool :=
  (s.client c).attached && (s.client c).attention && s.hasNotice c

/-- The clients of Port I (Table 9-1). -/
def portIClients : List Client := [0, 1, 2, 3]

/-- The clients of Port S (Table 9-1). -/
def portSClients : List Client := [4, 5, 6, 7]

/-- Bring both attention lines into agreement with R156: released during any reset and during initialization. -/
def State.settleAttention (s : State) : State :=
  { s with
    attnI := decide (s.phase = .running) && portIClients.any s.wantsAttention
    attnS := decide (s.phase = .running) && portSClients.any s.wantsAttention }

/-- The flags of a response to a client, at the end of the event that writes it (R185). -/
def State.responseFlags (s : State) (c : Client) : RespFlags where
  dropped := (s.slot c).dropped
  previousUnread := (s.slot c).previousUnread
  supervisor := s.supervisor = c
  noticePending := s.hasNotice c

/-- Write a response into the client's slot: the slot becomes READY, and its two indications go into the flags and are
cleared (R182). -/
def State.respond (s : State) (c : Client) (tag : Byte) (a : Answer) : State :=
  s.setSlot c ⟨.ready ⟨a.status, tag, s.responseFlags c, a.body⟩, false, false⟩

/-- The bytes that reading a slot shifts out before FFh: the response, or the MARK alone (R177, R185). -/
def SlotState.readOut : SlotState → ReadOut
  | .none => ⟨[0x00], false⟩
  | .busy _ => ⟨[0x3C], false⟩
  | .ready r => ⟨r.bytes, true⟩

/-- The MARK of a slot (Table 10-4). -/
def SlotState.mark : SlotState → Byte
  | .none => 0x00
  | .busy _ => 0x3C
  | .ready _ => 0xC3

/-- Cut a read-out off: FFh from here on (R177, R180). -/
def ReadOut.cut : ReadOut := ⟨[], false⟩

/-- Port I after a client's slot is emptied: a read of that slot gives FFh from then on (R177). -/
def PortIState.afterEmptying (p : PortIState) (c : Client) : PortIState :=
  match p.bus with
  | .reading k _ => if k = c then { p with bus := .reading k ReadOut.cut } else p
  | _ => p

/-- Port S after a client's slot is emptied (R180). -/
def PortSState.afterEmptying (p : PortSState) (c : Client) : PortSState :=
  match p.window with
  | .fetch k _ => if k = c then { p with window := .fetch k ReadOut.cut } else p
  | _ => p

/-- Empty a client's slot to NONE, with its indications and with a command accepted and not yet taken (R183, R166). -/
def State.emptySlot (s : State) (c : Client) : State :=
  { s.setSlot c ⟨.none, false, false⟩ with
    portI := s.portI.afterEmptying c
    portS := s.portS.afterEmptying c }

/-- Take the command that a client's port has accepted, if it is this one: apply it, then write its response at the end
of the event (R30, R182). With no such command in the slot nothing changes and nothing is answered (R166, log 5). -/
def takeCommand (cmd : Command) (run : Client → List Byte → State → State × Answer) (c : Client) (s : State) : State :=
  match (s.slot c).state with
  | .busy a =>
    if a.command = cmd then
      let r := run c a.body s
      r.1.respond c a.tag r.2
    else s
  | _ => s

end Sys2Proof.Machine
end

