-- ==== Sys2Proof/Machine/Lines.lean ====
section
/-!
DEFINITION. The line controller (chapter 1): the change of effective configurations with its report to the converter,
and what a pad does and reads (Table 1-4, R95).
-/

namespace Sys2Proof.Machine

/-- The effective configurations after a change that names some lines (R7). -/
def State.effectiveAfter (s : State) (ps : LineConfigs) : Vector LineConfig 24 :=
  tabulate fun l => (configFor ps l).getD s.effective[l]

/-- The request in flight after the mode-change reports of a change: DISTURBED if its line's mode differs between before
and after (R15, R139). -/
def InFlight.afterReports (before after : Vector LineConfig 24) (r : InFlight) : InFlight :=
  if before[r.request.line].mode = after[r.request.line].mode then r else { r with disturbed := true }

/-- Give the named lines new effective configurations as one change, with its mode-change reports (R7, R15). -/
def State.configureLines (s : State) (ps : LineConfigs) : State :=
  { s with
    effective := s.effectiveAfter ps
    inFlight := s.inFlight.map (InFlight.afterReports s.effective (s.effectiveAfter ps)) }

/-- The idle plan entries of some lines, as configurations for those lines (R14). -/
def State.idleConfigs (s : State) (ls : List Line) : LineConfigs := ls.map fun l => (l, s.idlePlan[l])

/-! ## Pads -/

/-- The effective pull of a configuration (Table 1-3). -/
def LineConfig.effectivePull (c : LineConfig) : Pull :=
  match c.mode with
  | .input => c.pull
  | .openDrain => c.pull
  | .pushPull => .none
  | .pulse => .none
  | .analog => .none

/-- The generator's record, if it is RUNNING. -/
def Generator.record : Generator → Option Running
  | .free => none
  | .running r => some r

/-- The generator's record, if it is RUNNING for the lease in a slot. -/
def Generator.recordFor (g : Generator) (i : Slot) : Option Running :=
  match g with
  | .free => none
  | .running r => if r.slot = i then some r else none

/-- The RUNNING generator that is assigned to a line (R115). -/
def State.generatorOn (s : State) (l : Line) : Option Running :=
  (allGenerators.filterMap fun g => s.generators[g].record).find? fun r => r.line = l

/-- The opposite level. -/
def Level.opposite : Level → Level
  | .low => .high
  | .high => .low

/-- The generator's output is active while its count is below its high count (R119). -/
def Running.active (r : Running) : Bool := r.count < r.high

/-- The level of a PULSE pad: HIGH while active with polarity LOW, LOW while active with polarity HIGH (Table 6-3). -/
def pulseLevel (polarity : Level) (r : Running) : Level := if r.active then polarity.opposite else polarity

/-- What the pad's output stage does (Table 1-4). -/
inductive Driver where
  | off
  | drives (v : Level)
  deriving DecidableEq, Repr

/-- What a pad presents to its wire (Table 1-4). -/
structure Pad where
  driver : Driver
  pull : Pull
  digitalInput : Bool
  channel : Bool
  deriving DecidableEq, Repr

/-- The output driver of a line by its effective mode (Table 1-4). -/
def State.lineDriver (s : State) (l : Line) : Driver :=
  let c := s.effective[l]
  match c.mode with
  | .input => .off
  | .pushPull => .drives c.level
  | .openDrain => match c.level with | .low => .drives .low | .high => .off
  | .pulse => match s.generatorOn l with | some r => .drives (pulseLevel c.level r) | none => .off
  | .analog => .off

/-- The pad of a line: high impedance while a reset is in progress (R17), and by Table 1-4 otherwise. -/
def State.pad (s : State) (l : Line) : Pad :=
  let c := s.effective[l]
  if s.phase.active then
    ⟨s.lineDriver l, c.effectivePull, c.mode ≠ .analog, c.mode = .analog⟩
  else ⟨.off, .none, true, false⟩

/-- The level of a wire. A device on the board that drives the wire decides it; else the part's driver does; else the
effective pull does; else the wire has the level that the board leaves on it (R6, R95, log 8). -/
def wireLevel (p : Pad) (boardDrives : Bool) (boardLevel : Level) : Level :=
  if boardDrives then boardLevel
  else
    match p.driver with
    | .drives v => v
    | .off =>
      match p.pull with
      | .up => .high
      | .down => .low
      | .none => boardLevel

/-- The level that a sample reads on a line: the wire, and LOW where the digital input stage is off (R95). -/
def State.sampledLevel (s : State) (driven level : LineSet) (l : Line) : Level :=
  let p := s.pad l
  if p.digitalInput then wireLevel p (inSet l driven) (levelOfBool (inSet l level)) else .low

/-- The voltage at the converter channel of a line: the wire's while the line is connected, and ground in every other
mode (R130, R138). -/
def State.channelVoltage (s : State) (l : Line) (microvolts : Int) : Int :=
  if (s.pad l).channel then microvolts else 0

end Sys2Proof.Machine
end

