-- ==== Sys2Proof/Machine/Grant.lean ====
section
/-!
DEFINITION. The grant arbiter (chapter 3): conflict, the four grant conditions, what a grant does, and the grant scan.
-/

namespace Sys2Proof.Machine

/-- Two claims conflict: they share a line and at least one of them is EXCLUSIVE (R51). -/
def claimsConflict (k₁ : Kind) (ls₁ : List Line) (k₂ : Kind) (ls₂ : List Line) : Bool :=
  (k₁ = .exclusive || k₂ = .exclusive) && ls₁.any fun l => ls₂.contains l

/-- What the arbiter is asked about: a kind, lines, and a count of PULSE lines (R52). -/
structure Candidate where
  kind : Kind
  lines : List Line
  pulses : Nat
  deriving DecidableEq, Repr

/-- A WAITING entry as a candidate. -/
def waitingCandidate (cl : Claim) (w : Waiting) : Candidate := ⟨cl.kind, cl.lines, (pulseLines w.configs).length⟩

/-- The FREE generators, ascending (R70). -/
def State.freeGenerators (s : State) : List GenIx := allGenerators.filter fun g => s.generators[g] = .free

/-- The entry is HELD with a claim that conflicts with the candidate. -/
def EntryBody.heldConflict (b : EntryBody) (c : Candidate) : Bool :=
  match b.heldClaim with
  | none => false
  | some cl => claimsConflict cl.kind cl.lines c.kind c.lines

/-- The entry is WAITING with a claim that conflicts with the candidate. -/
def EntryBody.waitingConflict (b : EntryBody) (c : Candidate) : Bool :=
  match b with
  | .waiting cl _ => claimsConflict cl.kind cl.lines c.kind c.lines
  | _ => false

/-- The entry is WAITING and has PULSE lines. -/
def EntryBody.waitingPulses (b : EntryBody) : Bool :=
  match b with
  | .waiting _ w => !(pulseLines w.configs).isEmpty
  | _ => false

/-- Condition (a): no line of the candidate is fenced. -/
def State.unfencedFor (s : State) (c : Candidate) : Bool := c.lines.all fun l => !inSet l s.fences

/-- Condition (b): no HELD lease conflicts with the candidate. -/
def State.unheldFor (s : State) (c : Candidate) : Bool := allSlots.all fun i => !(s.entry i).body.heldConflict c

/-- Condition (c): no older waiting entry conflicts with the candidate. -/
def State.unwaitedFor (s : State) (older : List Slot) (c : Candidate) : Bool :=
  older.all fun i => !(s.entry i).body.waitingConflict c

/-- Condition (d): enough FREE generators, and no older waiting entry with PULSE lines. -/
def State.generatorsFor (s : State) (older : List Slot) (c : Candidate) : Bool :=
  c.pulses = 0 || (decide (c.pulses ≤ s.freeGenerators.length) && older.all fun i => !(s.entry i).body.waitingPulses)

/-- The four grant conditions (R52), with the older entries that still wait. -/
def State.grantable (s : State) (older : List Slot) (c : Candidate) : Bool :=
  s.unfencedFor c && s.unheldFor c && s.unwaitedFor older c && s.generatorsFor older c

/-- The status of a NO_WAIT refusal, by the first failing condition (R61). -/
def State.refusalStatus (s : State) (older : List Slot) (c : Candidate) : Status :=
  if !s.unfencedFor c then .fenced
  else if !s.unheldFor c then .busy
  else if !s.unwaitedFor older c then .busy
  else .noGenerator

/-- The generator records that a grant starts: the PULSE lines in ascending order, each with its generator and its high
count, at count 0 and prescale position 0 (R70, R120). -/
def startedGenerators (i : Slot) (gs : List GenIx) (ls : List Line) (p : PulseSetting) : List (GenIx × Running) :=
  gs.zip ((ls.zip p.highs).map fun lh => ⟨i, lh.1, p.divider, p.period, lh.2, 0, 0, false⟩)

/-- Start generators. -/
def State.startGenerators (s : State) (rs : List (GenIx × Running)) : State :=
  { s with
    generators := tabulate fun g => match rs.lookup g with | some r => .running r | none => s.generators[g] }

/-- The generators that a grant assigns to some PULSE lines: the lowest-numbered FREE ones (R70). -/
def State.assigned (s : State) (ls : List Line) : List GenIx := s.freeGenerators.take ls.length

/-- The HELD part of a lease at its grant (R68, R24). -/
def heldAtGrant (cl : Claim) (configs : LineConfigs) (pulse : Option PulseSetting) (gs : List GenIx)
    (due : Option Nat) : Held :=
  ⟨configs, pulse.map fun p => ⟨p, gs, none⟩, cl.term, due, none, .none, none⟩

/-- Start the generators of a grant, if it has a pulse group. -/
def State.startPulses (s : State) (i : Slot) (configs : LineConfigs) (pulse : Option PulseSetting) : State :=
  match pulse with
  | none => s
  | some p => s.startGenerators (startedGenerators i (s.assigned (pulseLines configs)) (pulseLines configs) p)

/-- Make the entry in a slot HELD: its state and fields (R68), its generators (R70), its lines (R69), and GRANTED (R71). -/
def State.grantLease (s : State) (i : Slot) (cl : Claim) (configs : LineConfigs) (pulse : Option PulseSetting)
    (due : Option Nat) : State :=
  let held := heldAtGrant cl configs pulse (s.assigned (pulseLines configs)) due
  let s := s.startPulses i configs pulse
  let s := s.setBody i (.held cl held)
  let s := s.configureLines configs
  s.postGranted i

/-- Take an entry out of the wait list (R65). -/
def State.leaveWaitList (s : State) (i : Slot) : State := { s with waitList := s.waitList.filter fun j => j ≠ i }

/-- A grant scan from some point of the wait list on, with the older entries that still wait (R66). -/
def scanFrom (older : List Slot) : List Slot → State → State
  | [], s => s
  | i :: newer, s =>
    match (s.entry i).body with
    | .waiting cl w =>
      if s.grantable older (waitingCandidate cl w) then
        scanFrom older newer ((s.leaveWaitList i).grantLease i cl w.configs w.pulse w.due)
      else scanFrom (older ++ [i]) newer s
    | _ => scanFrom older newer s

/-- A grant scan: one pass over the wait list from oldest to newest (R66). -/
def State.grantScan (s : State) : State := scanFrom [] s.waitList s

end Sys2Proof.Machine
end

