-- ==== Sys2Proof/Machine/Lifecycle.lean ====
section
/-!
DEFINITION. How an entry ends (section 2.7) and how a session is torn down (section 9.3).
-/

namespace Sys2Proof.Machine

/-- Return the lines of an EXCLUSIVE lease to their idle plan entries (R14). -/
def State.returnLines (s : State) (cl : Claim) : State :=
  match cl.kind with
  | .exclusive => s.configureLines (s.idleConfigs cl.lines)
  | .shared => s

/-- Stop every generator of the lease in a slot: it becomes FREE (R126). -/
def State.stopGenerators (s : State) (i : Slot) : State :=
  { s with
    generators := tabulate fun g => if (s.generators[g].recordFor i).isSome then .free else s.generators[g] }

/-- Undo the conversion of the lease in a slot: a QUEUED request is withdrawn, an IN_FLIGHT one is marked discard
(R141). -/
def State.dropConversion (s : State) (i : Slot) (v : ConvState) : State :=
  match v with
  | .none => s
  | .queued => { s with convQueue := s.convQueue.filter fun r => r.slot ≠ i }
  | .inFlight =>
    { s with inFlight := s.inFlight.map fun r => if r.request.slot = i then { r with discard := true } else r }

/-- The effects of ending the HELD lease in a slot, apart from the entry itself (R44). The watch, the assignments and the
pending pulse update go with the entry's HELD fields. -/
def State.endEffects (s : State) (i : Slot) (cl : Claim) (h : Held) : State :=
  ((s.returnLines cl).stopGenerators i).dropConversion i h.conv

/-- What an entry's end undoes: the effects of ending a HELD lease, or a waiting entry's place in the wait list
(R44, R46). -/
def State.undoEntry (s : State) (i : Slot) : State :=
  match (s.entry i).body with
  | .free => s
  | .waiting _ _ => s.leaveWaitList i
  | .held cl h => s.endEffects i cl h
  | .ended _ _ => s

/-- The entry becomes FREE from any other state: what it held is undone, its generation advances and its notices are
discarded (R19, R45–R47). A FREE entry is not changed. -/
def State.retire (s : State) (i : Slot) : State :=
  if (s.entry i).body = .free then s
  else ((s.undoEntry i).setEntry i ⟨(s.entry i).generation + 1, .free⟩).discardNotices i

/-- The tombstone that a WAITING or HELD entry leaves (R21): its claim, the end reason, and the result slot of a HELD
lease. -/
def EntryBody.tombstone (b : EntryBody) (r : EndReason) : EntryBody :=
  match b with
  | .free => .free
  | .waiting cl _ => .ended cl ⟨r, none⟩
  | .held cl h => .ended cl ⟨r, h.result⟩
  | .ended cl t => .ended cl t

/-- The WAITING or HELD entry becomes a tombstone: what it held is undone and ENDED is posted (R45, R46). -/
def State.entomb (s : State) (i : Slot) (r : EndReason) : State :=
  ((s.undoEntry i).setBody i ((s.entry i).body.tombstone r)).postEnded i r

/-- Retire some entries, in their order. -/
def State.retireAll (s : State) (is : List Slot) : State := is.foldl State.retire s

/-- The client record after its session ends (R167, step 3). -/
def ClientRecord.ended (r : ClientRecord) (reason : LastEnd) : ClientRecord :=
  { r with attached := false, count := none, lastEnd := reason }

/-- The teardown of a client's session, steps 1 to 3 of R167: its entries become FREE, its notices are discarded, its
cursor returns to 31, and it becomes DETACHED. -/
def State.teardown (s : State) (c : Client) (reason : LastEnd) : State :=
  let s := s.retireAll (s.ownedSlots c)
  let s := { s with gained := s.gained.set c none, cursors := s.cursors.set c 31 }
  s.setClient c ((s.client c).ended reason)

end Sys2Proof.Machine
end

