-- ==== Sys2Proof/Machine/Leases.lean ====
section
/-!
DEFINITION. The lease commands (chapters 2 and 4): ACQUIRE, CANCEL, RELEASE, RENEW, ACKNOWLEDGE, RECONFIGURE, DESCRIBE
and LIST.
-/

namespace Sys2Proof.Machine

/-! ## ACQUIRE -/

/-- The claim of a new lease (R21). -/
def AcquireRequest.claim (r : AcquireRequest) (c : Client) : Claim := ⟨c, r.kind, r.lines, r.term⟩

/-- The request as a candidate (R52). -/
def AcquireRequest.candidate (r : AcquireRequest) : Candidate := ⟨r.kind, r.lines, (pulseLines r.configs).length⟩

/-- The lowest-numbered FREE slot (R34). -/
def State.freeSlot (s : State) : Option Slot := allSlots.find? fun i => (s.entry i).body = .free

/-- The arrival number of an entry. -/
def EntryBody.arrival : EntryBody → Nat
  | .waiting _ w => w.arrival
  | _ => 0

/-- An arrival number above that of every entry in the wait list (R64, log 11). -/
def State.nextArrival (s : State) : Nat := s.waitList.foldl (fun n i => max n (s.entry i).body.arrival) 0 + 1

/-- The WAITING part of a queued request (R22, R62). -/
def AcquireRequest.waiting (r : AcquireRequest) (arrival : Nat) : Waiting :=
  ⟨r.configs, r.pulse, r.due, r.waitLimit.map fun w => ⟨w, w⟩, arrival⟩

/-- Queue a request in a slot, at the tail of the wait list (R62, R64). -/
def State.queueRequest (s : State) (i : Slot) (c : Client) (r : AcquireRequest) : State :=
  { s.setBody i (.waiting (r.claim c) (r.waiting s.nextArrival)) with waitList := s.waitList ++ [i] }

/-- The argument, quota and table checks of ACQUIRE (R31 to R34). -/
def State.acquireChecks (s : State) (c : Client) (body : List Byte) : Check (AcquireRequest × Slot) := do
  let r ← acquireRequest body
  let owned := (s.ownedSlots c).length
  if 8 ≤ owned then .error ⟨.quota, [byteOf owned]⟩
  else
    let i ← need s.freeSlot .tableFull
    pure (r, i)

/-- ACQUIRE as the lease manager takes it: granted, queued or refused by the arbiter's answer (R35, R61, R62). -/
def acquireReply (c : Client) (body : List Byte) (s : State) : State × Answer :=
  answerWith s (s.acquireChecks c body) fun p =>
    let r := p.1
    let i := p.2
    let handle := handleByte (s.entry i).generation i
    if s.grantable s.waitList r.candidate then
      ((s.grantLease i (r.claim c) r.configs r.pulse r.due).settleAttention, okWith (handle :: bytes16 r.term))
    else if r.mayWait then
      ((s.queueRequest i c r).settleAttention, ⟨.queued, [handle, byteOf (s.waitList.length + 1)]⟩)
    else (s, ⟨s.refusalStatus s.waitList r.candidate, []⟩)

/-- ACQUIRE (R35). -/
def execAcquire (c : Client) (s : State) : Host.Outcome State Fault Refusal :=
  .next (takeCommand .acquire acquireReply c s)

/-! ## CANCEL, RELEASE and ACKNOWLEDGE -/

/-- The slot that a body made of a handle alone names for its owner (R20). -/
def State.soleHandle (s : State) (c : Client) (body : List Byte) : Check Slot := do
  let h ← oneByte body
  s.resolve c false h

/-- CANCEL as the lease manager takes it (R37). -/
def cancelReply (c : Client) (body : List Byte) (s : State) : State × Answer :=
  answerWith s (do
      let i ← s.soleHandle c body
      (s.entry i).body.needWaiting
      pure i)
    fun i => (((s.retire i).grantScan).settleAttention, okWith [])

/-- CANCEL (R37). -/
def execCancel (c : Client) (s : State) : Host.Outcome State Fault Refusal :=
  .next (takeCommand .cancel cancelReply c s)

/-- RELEASE as the lease manager takes it (R36). -/
def releaseReply (c : Client) (body : List Byte) (s : State) : State × Answer :=
  answerWith s (do
      let i ← s.soleHandle c body
      let _ ← (s.entry i).body.needHeld
      pure i)
    fun i => (((s.retire i).grantScan).settleAttention, okWith [])

/-- RELEASE (R36). -/
def execRelease (c : Client) (s : State) : Host.Outcome State Fault Refusal :=
  .next (takeCommand .release releaseReply c s)

/-- ACKNOWLEDGE as the lease manager takes it: the tombstone is retired, with no grant scan (R38). -/
def acknowledgeReply (c : Client) (body : List Byte) (s : State) : State × Answer :=
  answerWith s (do
      let i ← s.soleHandle c body
      let r ← (s.entry i).body.needEnded
      pure (i, r))
    fun p => ((s.retire p.1).settleAttention, okWith [p.2.code])

/-- ACKNOWLEDGE (R38). -/
def execAcknowledge (c : Client) (s : State) : Host.Outcome State Fault Refusal :=
  .next (takeCommand .acknowledge acknowledgeReply c s)

/-! ## RENEW -/

/-- The term, remaining term and due mark after a RENEW (R84, R85). -/
def renewed (cl : Claim) (h : Held) (t : Option (Nat × Option Nat)) : Claim × Held :=
  match t with
  | none => (cl, { h with remaining := cl.term })
  | some (term, due) => ({ cl with term := term }, { h with remaining := term, due := due })

/-- The body of a RENEW response (R86). -/
def State.renewBody (s : State) (cl : Claim) (h : Held) : List Byte :=
  bytes16 h.remaining ++ bytes16 cl.term ++ bytes16 (h.due.getD 0) ++ [byteOf s.tickRate.val]

/-- RENEW as the lease manager takes it (R84 to R86). -/
def renewReply (c : Client) (body : List Byte) (s : State) : State × Answer :=
  answerWith s (do
      let (h, rest) ← handleFirst body
      let t ← renewTerm rest
      let i ← s.resolve c false h
      let (cl, held) ← (s.entry i).body.needHeld
      pure (i, renewed cl held t))
    fun p => (s.setBody p.1 (.held p.2.1 p.2.2), okWith (s.renewBody p.2.1 p.2.2))

/-- RENEW (R84). -/
def execRenew (c : Client) (s : State) : Host.Outcome State Fault Refusal := .next (takeCommand .renew renewReply c s)

/-! ## RECONFIGURE -/

/-- The configurations of a lease after some of its lines are given new ones (R41). -/
def replaced (configs ps : LineConfigs) : LineConfigs := configs.map fun p => (p.1, (configFor ps p.1).getD p.2)

/-- The configuration that the lease holds for a line is PULSE (R40). -/
def isPulseIn (configs : LineConfigs) (l : Line) : Bool :=
  match configFor configs l with
  | none => false
  | some c => c.mode = .pulse

/-- Every line is in the lease, or BAD_LINES (R29, stage 5). -/
def needLines (cl : Claim) (ls : List Line) : Check Unit := ensure (ls.all fun l => cl.lines.contains l) .badLines

/-- The checks of RECONFIGURE (R40). -/
def State.reconfigureChecks (s : State) (c : Client) (body : List Byte) : Check (Slot × Claim × Held × LineConfigs) := do
  let (h, rest) ← handleFirst body
  let ps ← reconfigurePairs rest
  let i ← s.resolve c false h
  let (cl, held) ← (s.entry i).body.needExclusive
  needLines cl (ps.map Prod.fst)
  ensure (ps.all fun p => !isPulseIn held.configs p.1) .mode
  pure (i, cl, held, ps)

/-- Give some lines of the HELD EXCLUSIVE lease in a slot new configurations, in its record and at the pads (R13). -/
def State.reconfigureLease (s : State) (i : Slot) (cl : Claim) (h : Held) (ps : LineConfigs) : State :=
  (s.setBody i (.held cl { h with configs := replaced h.configs ps })).configureLines ps

/-- RECONFIGURE as the lease manager takes it (R41). -/
def reconfigureReply (c : Client) (body : List Byte) (s : State) : State × Answer :=
  answerWith s (s.reconfigureChecks c body) fun p =>
    (s.reconfigureLease p.1 p.2.1 p.2.2.1 p.2.2.2, okWith [])

/-- RECONFIGURE (R41). -/
def execReconfigure (c : Client) (s : State) : Host.Outcome State Fault Refusal :=
  .next (takeCommand .reconfigure reconfigureReply c s)

/-! ## DESCRIBE -/

/-- A field that the entry may not have reads 0 (R190). -/
def optional16Bytes (n : Option Nat) : List Byte := bytes16 (n.getD 0)

/-- The present byte of part RECORD: watch, result slot, pulse group, pending update in bits 0 to 3 (R190). -/
def presentByte (watch result pulse update : Bool) : Byte :=
  byteOf ((if watch then 1 else 0) + (if result then 2 else 0) + (if pulse then 4 else 0) + if update then 8 else 0)

/-- The claim's part of RECORD. -/
def recordHead (b : EntryBody) (cl : Claim) : List Byte :=
  [byteOf b.stateCode, byteOf cl.owner.val, cl.kind.code] ++ bytes16 cl.term

/-- DESCRIBE, part RECORD: 17 bytes (R190). -/
def State.describeRecord (s : State) (i : Slot) : List Byte :=
  match (s.entry i).body with
  | .free => []
  | .waiting cl w =>
    recordHead (.waiting cl w) cl ++ bytes16 0 ++ optional16Bytes w.due
      ++ optional16Bytes (w.wait.map WaitLimit.limit) ++ optional16Bytes (w.wait.map WaitLimit.remaining)
      ++ [byteOf (s.waitPosition i), 0, 0, presentByte false false w.pulse.isSome false]
  | .held cl h =>
    recordHead (.held cl h) cl ++ bytes16 h.remaining ++ optional16Bytes h.due ++ bytes16 0 ++ bytes16 0
      ++ [0, 0, h.conv.code,
        presentByte h.watch.isSome h.result.isSome h.pulse.isSome (h.pulse.bind PulseGroup.update).isSome]
  | .ended cl t =>
    recordHead (.ended cl t) cl ++ bytes16 0 ++ bytes16 0 ++ bytes16 0 ++ bytes16 0
      ++ [0, t.reason.code, 0, presentByte false t.result.isSome false false]

/-- The generator byte of a line: its generator, or FFh where none is assigned (R190). -/
def generatorByte (gs : List (Line × GenIx)) (l : Line) : Byte :=
  match gs.lookup l with
  | some g => byteOf g.val
  | none => 0xFF

/-- The lines of an EXCLUSIVE WAITING or HELD entry, each with its configuration and generator (R190). -/
def configuredLines (configs : LineConfigs) (gs : List (Line × GenIx)) : List Byte :=
  byteOf configs.length :: configs.flatMap fun p => [byteOf p.1.val, p.2.byte, generatorByte gs p.1]

/-- A line list without configurations. -/
def bareLines (ls : List Line) : List Byte := byteOf ls.length :: ls.map fun l => byteOf l.val

/-- The generators of a HELD lease by PULSE line (R121). -/
def Held.generatorLines (h : Held) : List (Line × GenIx) :=
  match h.pulse with
  | none => []
  | some g => (pulseLines h.configs).zip g.generators

/-- DESCRIBE, part LINES (R42, R190). -/
def EntryBody.describeLines : EntryBody → List Byte
  | .free => []
  | .waiting cl w =>
    match cl.kind with
    | .exclusive => configuredLines w.configs []
    | .shared => bareLines cl.lines
  | .held cl h =>
    match cl.kind with
    | .exclusive => configuredLines h.configs h.generatorLines
    | .shared => bareLines cl.lines
  | .ended cl _ => bareLines cl.lines

/-- Divider, period and high counts of a setting. -/
def highBytes (p : PulseSetting) : List Byte := p.highs.flatMap bytes16

/-- The pending byte of part PULSE, and the update's values (R190). -/
def updateBytes : Option PulseUpdate → List Byte
  | none => [0]
  | some u =>
    [byteOf (128 + (if u.dividerGiven then 1 else 0) + (if u.periodGiven then 2 else 0) + if u.highsGiven then 4 else 0),
      byteOf u.setting.divider] ++ bytes16 u.setting.period ++ highBytes u.setting

/-- The content of part PULSE (R190). -/
def pulseBytes (p : PulseSetting) (u : Option PulseUpdate) : List Byte :=
  [byteOf p.divider] ++ bytes16 p.period ++ [byteOf p.highs.length] ++ highBytes p ++ updateBytes u

/-- DESCRIBE, part PULSE; none where the entry has no pulse group (R42). -/
def EntryBody.describePulse : EntryBody → Option (List Byte)
  | .waiting _ w => w.pulse.map fun p => pulseBytes p none
  | .held _ h => h.pulse.map fun g => pulseBytes g.setting g.update
  | _ => none

/-- DESCRIBE, part WATCH; none without a watch (R42). -/
def EntryBody.describeWatch : EntryBody → Option (List Byte)
  | .held _ h =>
    h.watch.map fun w =>
      [byteOf w.filter, byteOf w.lines.length] ++ w.lines.flatMap fun x =>
        [byteOf x.line.val, x.sense.code, byteOf x.stable.code, byteOf x.run]
  | _ => none

/-- The result slot of an entry. -/
def EntryBody.result : EntryBody → Option ConvResult
  | .held _ h => h.result
  | .ended _ t => t.result
  | _ => none

/-- The content of a part of an entry; none where the entry does not have the part (R42). -/
def State.describePart (s : State) (i : Slot) : Part → Option (List Byte)
  | .record => some (s.describeRecord i)
  | .lines => some (s.entry i).body.describeLines
  | .pulse => (s.entry i).body.describePulse
  | .watch => (s.entry i).body.describeWatch
  | .result => (s.entry i).body.result.map ConvResult.lineStatusValue

/-- The body of a DESCRIBE response: the part, whether it is present, and its content (R190). -/
def describeBody (p : Part) : Option (List Byte) → List Byte
  | none => [p.code, 0]
  | some bs => [p.code, 1] ++ bs

/-- DESCRIBE as the lease manager takes it; the supervisor is excepted from the owner check (R42, R20). -/
def describeReply (c : Client) (body : List Byte) (s : State) : State × Answer :=
  answerWith s (do
      let (h, p) ← twoBytes body
      let part ← need (partOfByte p) .badArgument
      let i ← s.resolve c (s.supervisor = c) h
      pure (i, part))
    fun p => (s, okWith (describeBody p.2 (s.describePart p.1 p.2)))

/-- DESCRIBE (R42). -/
def execDescribe (c : Client) (s : State) : Host.Outcome State Fault Refusal :=
  .next (takeCommand .describe describeReply c s)

/-! ## LIST -/

/-- One byte of LIST with scope ALL: state, owner and generation; a FREE slot reports owner 0 (R43, R190). -/
def Entry.listByte (e : Entry) : Byte :=
  byteOf (e.body.stateCode * 64 + (match e.body.claim with | none => 0 | some cl => cl.owner.val) * 8 + e.generation.val)

/-- The body of a LIST response (R43). -/
def State.listBody (s : State) (c : Client) (all : Bool) : List Byte :=
  if all then allSlots.map fun i => (s.entry i).listByte
  else
    byteOf (s.ownedSlots c).length :: (s.ownedSlots c).flatMap fun i =>
      [handleByte (s.entry i).generation i, byteOf (s.entry i).body.stateCode]

/-- The checks of LIST: supervisor rights for scope ALL, then the scope code (R43, R29, log 12). -/
def State.listChecks (s : State) (c : Client) (body : List Byte) : Check Bool := do
  ensure (body ≠ [1] || s.supervisor = c) .notSupervisor
  let b ← oneByte body
  need (scopeOfByte b) .badArgument

/-- LIST as the lease manager takes it (R43). -/
def listReply (c : Client) (body : List Byte) (s : State) : State × Answer :=
  answerWith s (s.listChecks c body) fun all => (s, okWith (s.listBody c all))

/-- LIST (R43). -/
def execList (c : Client) (s : State) : Host.Outcome State Fault Refusal := .next (takeCommand .list listReply c s)

end Sys2Proof.Machine
end

