-- ==== Sys2Proof/Machine/Converter.lean ====
section
/-!
DEFINITION. The converter (chapter 7): CONVERT, SET_CONVERTER, ACQUISITION_END, SAMPLE_CONVERSION_END and
CONVERSION_COMPLETE.
-/

namespace Sys2Proof.Machine

/-! ## Codes -/

/-- The code of a held voltage against a reference voltage: their ratio times 1024, rounded down, limited to 1023, and 0
below 0 V (R130). With a reference that is not positive the code is free (log 10). -/
def codeOf (held reference : Int) : Nat :=
  min 1023 (if 0 < reference then (held * 1024 / reference).toNat else Config.codeWithoutReference held)

/-- The reference voltage of a request (R130, log 9). -/
def referenceVoltage (r : Reference) (vdd : Int) : Int :=
  match r with
  | .internal => Config.internalReference
  | .supply => vdd

/-! ## Results and starts -/

/-- A HELD entry after a result is written to it; its conversion state becomes NONE (R140). -/
def EntryBody.withResult (b : EntryBody) (r : ConvResult) : EntryBody :=
  match b with
  | .held cl h => .held cl { h with result := some r, conv := .none }
  | b => b

/-- A HELD entry with another conversion state. -/
def EntryBody.withConv (b : EntryBody) (v : ConvState) : EntryBody :=
  match b with
  | .held cl h => .held cl { h with conv := v }
  | b => b

/-- Deliver a result to a lease: OVERRUN is set if CONVERTED is pending when the slot is written, and CONVERTED is posted
(R140, step 2). -/
def State.deliver (s : State) (i : Slot) (l : Line) (value : Option Nat) (st : ResultStatus) : State :=
  (s.setBody i ((s.entry i).body.withResult ⟨l, value, st, (s.noticesOf i).converted⟩)).postConverted i

/-- A request as it starts, with the settings in force (R137). -/
def State.started (s : State) (r : Request) : InFlight :=
  ⟨r, 0, 0, s.reference, s.acquisition, false, false, .acquiring, 0⟩

/-- Start the oldest of some queued requests: the start check completes a request whose line is not ANALOG with
MODE_LOST, and goes on to the next; with none left the converter is IDLE (R137, R140). -/
def startNext : List Request → State → State
  | [], s => { s with convQueue := [], inFlight := none }
  | r :: rest, s =>
    if s.effective[r.line].mode = .analog then
      { s.setBody r.slot ((s.entry r.slot).body.withConv .inFlight) with
        convQueue := rest, inFlight := some (s.started r) }
    else startNext rest (s.deliver r.slot r.line none .modeLost)

/-- The request in flight completes with its sum: its result is delivered, or dropped under the discard mark, and the next
request starts (R140). -/
def State.completeRequest (s : State) (r : InFlight) : State :=
  if r.discard then startNext s.convQueue s
  else
    startNext s.convQueue
      (s.deliver r.request.slot r.request.line (some (r.sum / r.request.samples))
        (if r.disturbed then .disturbed else .ok))

/-! ## CONVERT and SET CONVERTER -/

/-- The checks of CONVERT (R134). -/
def State.convertChecks (s : State) (c : Client) (body : List Byte) : Check Request := do
  let (h, rest) ← handleFirst body
  let (line, samples) ← convertRequest rest
  let i ← s.resolve c false h
  let (cl, held) ← (s.entry i).body.needHeld
  needLines cl [line]
  ensure (s.effective[line].mode = .analog) .mode
  ensure (held.conv = .none) .busy
  ensure (decide (s.convQueue.length < 8)) .queueFull
  pure ⟨i, line, samples⟩

/-- Append a request; an IDLE converter starts it within the event (R135). -/
def State.requestConversion (s : State) (r : Request) : State :=
  let t := { s.setBody r.slot ((s.entry r.slot).body.withConv .queued) with convQueue := s.convQueue ++ [r] }
  match s.inFlight with
  | none => startNext t.convQueue t
  | some _ => t

/-- CONVERT as the lease manager and the converter take it (R135). -/
def convertReply (c : Client) (body : List Byte) (s : State) : State × Answer :=
  answerWith s (s.convertChecks c body) fun r =>
    ((s.requestConversion r).settleAttention, okWith [byteOf (match s.inFlight with | none => 0 | some _ => s.convQueue.length + 1)])

/-- CONVERT (R135). -/
def execConvert (c : Client) (s : State) : Host.Outcome State Fault Refusal :=
  .next (takeCommand .convert convertReply c s)

/-- The checks of SET CONVERTER (R131). -/
def State.setConverterChecks (s : State) (c : Client) (body : List Byte) : Check (Reference × AcqTime) := do
  s.needSupervisor c
  let (rb, ab) ← twoBytes body
  let r ← need (referenceOfByte rb) .badArgument
  let a ← need (acqTimeOfByte ab) .badArgument
  pure (r, a)

/-- SET CONVERTER as the converter takes it (R131). -/
def setConverterReply (c : Client) (body : List Byte) (s : State) : State × Answer :=
  answerWith s (s.setConverterChecks c body) fun p =>
    ({ s with reference := p.1, acquisition := p.2 }, okWith [p.1.code, p.2.code])

/-- SET_CONVERTER (R131). -/
def execSetConverter (c : Client) (s : State) : Host.Outcome State Fault Refusal :=
  .next (takeCommand .setConverter setConverterReply c s)

/-! ## The converter's own events -/

/-- The acquisition time of the sample ends: the voltage at the channel is held (R138). -/
def State.endAcquisition (s : State) (microvolts : Int) : State :=
  match s.inFlight with
  | none => s
  | some r =>
    match r.phase with
    | .converting _ => s
    | .acquiring =>
      { s with
        inFlight := some { r with phase := .converting (s.channelVoltage r.request.line microvolts), elapsed := 0 } }

/-- The request after a sample's code is added (R138). -/
def InFlight.afterSample (r : InFlight) (held vdd : Int) : InFlight :=
  { r with
    done := r.done + 1
    sum := r.sum + codeOf held (referenceVoltage r.reference vdd)
    phase := .acquiring
    elapsed := 0 }

/-- The conversion of the sample ends: its code is added, and the next sample starts, or the request completes
(R138, R140). -/
def State.endConversion (s : State) (vdd : Int) : State :=
  match s.inFlight with
  | none => s
  | some r =>
    match r.phase with
    | .acquiring => s
    | .converting held =>
      if (r.afterSample held vdd).done < r.request.samples then { s with inFlight := some (r.afterSample held vdd) }
      else (s.completeRequest (r.afterSample held vdd)).settleAttention

/-- The sample being converted is the last of its request (R140). -/
def State.lastSampleConverting (s : State) : Bool :=
  match s.inFlight with
  | none => false
  | some r => r.phase ≠ .acquiring && r.request.samples ≤ r.done + 1

/-- ACQUISITION_END (R138), at the end of the acquisition time. Nothing changes at another moment, or where no sample is
being acquired (log 3, log 15). -/
def execAcquisitionEnd (microvolts : Int) (s : State) : Host.Outcome State Fault Refusal :=
  .next (if s.converterDue then s.endAcquisition microvolts else s)

/-- SAMPLE_CONVERSION_END (R138), 12 µs after the acquisition. Nothing changes at another moment, or where no sample is being
converted (log 3, log 15). -/
def execSampleConversionEnd (vdd : Int) (s : State) : Host.Outcome State Fault Refusal :=
  .next (if s.converterDue then s.endConversion vdd else s)

/-- CONVERSION_COMPLETE (R140): the conversion of the last sample of the request in flight ends. Nothing changes where the
converter is not there (log 3, log 15). -/
def execConversionComplete (vdd : Int) (s : State) : Host.Outcome State Fault Refusal :=
  .next (if s.converterDue && s.lastSampleConverting then s.endConversion vdd else s)

end Sys2Proof.Machine
end

