-- ==== Sys2Proof/Machine/LineCommands.lean ====
section
/-!
DEFINITION. The line commands of a holder (chapter 5) and SET_PULSE (chapter 6): WRITE_LEVELS, READ_LEVELS, SET_WATCH,
CLEAR_WATCH and SET_PULSE.
-/

namespace Sys2Proof.Machine

/-! ## WRITE LEVELS -/

/-- The line's mode in the lease takes a level: PUSH_PULL or OPEN_DRAIN (R97). -/
def takesLevel (configs : LineConfigs) (l : Line) : Bool :=
  match configFor configs l with
  | none => false
  | some c => c.mode = .pushPull || c.mode = .openDrain

/-- The checks of WRITE LEVELS (R97). -/
def State.writeLevelsChecks (s : State) (c : Client) (body : List Byte) :
    Check (Slot × Claim × Held × List (Line × Level)) := do
  let (h, rest) ← handleFirst body
  let ps ← levelPairs rest
  let i ← s.resolve c false h
  let (cl, held) ← (s.entry i).body.needExclusive
  needLines cl (ps.map Prod.fst)
  ensure (ps.all fun p => takesLevel held.configs p.1) .mode
  pure (i, cl, held, ps)

/-- The new configurations of the named lines: the level alone is replaced (R98). -/
def withLevels (configs : LineConfigs) (ps : List (Line × Level)) : LineConfigs :=
  ps.filterMap fun p => (configFor configs p.1).map fun c => (p.1, { c with level := p.2 })

/-- WRITE LEVELS as the lease manager takes it (R98). -/
def writeLevelsReply (c : Client) (body : List Byte) (s : State) : State × Answer :=
  answerWith s (s.writeLevelsChecks c body) fun p =>
    (s.reconfigureLease p.1 p.2.1 p.2.2.1 (withLevels p.2.2.1.configs p.2.2.2), okWith [])

/-- WRITE_LEVELS (R98). -/
def execWriteLevels (c : Client) (s : State) : Host.Outcome State Fault Refusal :=
  .next (takeCommand .writeLevels writeLevelsReply c s)

/-! ## READ LEVELS -/

/-- The watched line of a lease's watch, if the line is watched (R100). -/
def Held.watchedLine (h : Held) (l : Line) : Option WatchedLine :=
  match h.watch with
  | none => none
  | some w => w.lines.find? fun x => x.line = l

/-- The report byte of a line: last sample, watched, stable level in bits 0 to 2 (R190). -/
def levelReport (last : Level) (w : Option WatchedLine) : Byte :=
  match w with
  | none => byteOf last.code
  | some x => byteOf (last.code + 2 + x.stable.code * 4)

/-- The body of a READ LEVELS response (R100). -/
def State.levelsBody (s : State) (cl : Claim) (h : Held) : List Byte :=
  byteOf cl.lines.length :: cl.lines.flatMap fun l => [byteOf l.val, levelReport s.lastSample[l] (h.watchedLine l)]

/-- READ LEVELS as the lease manager takes it (R100). -/
def readLevelsReply (c : Client) (body : List Byte) (s : State) : State × Answer :=
  answerWith s (do
      let i ← s.soleHandle c body
      (s.entry i).body.needHeld)
    fun p => (s, okWith (s.levelsBody p.1 p.2))

/-- READ_LEVELS (R100). -/
def execReadLevels (c : Client) (s : State) : Host.Outcome State Fault Refusal :=
  .next (takeCommand .readLevels readLevelsReply c s)

/-! ## SET WATCH and CLEAR WATCH -/

/-- The checks of SET WATCH (R103). -/
def State.setWatchChecks (s : State) (c : Client) (body : List Byte) :
    Check (Slot × Claim × Held × Nat × List (Line × Sense)) := do
  let (h, rest) ← handleFirst body
  let (filter, ps) ← watchRequest rest
  let i ← s.resolve c false h
  let (cl, held) ← (s.entry i).body.needHeld
  needLines cl (ps.map Prod.fst)
  pure (i, cl, held, filter, ps)

/-- A new watch: each line armed at its last sample with run count 0, in ascending line order (R104). -/
def State.armedWatch (s : State) (filter : Nat) (ps : List (Line × Sense)) : Watch :=
  ⟨filter, allLines.filterMap fun l => (ps.lookup l).map fun sense => ⟨l, sense, s.lastSample[l], 0⟩⟩

/-- The body of a SET WATCH response (R104). -/
def Watch.armedBody (w : Watch) : List Byte :=
  byteOf w.lines.length :: w.lines.flatMap fun x => [byteOf x.line.val, byteOf x.stable.code]

/-- SET WATCH as the lease manager takes it (R104). -/
def setWatchReply (c : Client) (body : List Byte) (s : State) : State × Answer :=
  answerWith s (s.setWatchChecks c body) fun p =>
    let w := s.armedWatch p.2.2.2.1 p.2.2.2.2
    (s.setBody p.1 (.held p.2.1 { p.2.2.1 with watch := some w }), okWith w.armedBody)

/-- SET_WATCH (R104). -/
def execSetWatch (c : Client) (s : State) : Host.Outcome State Fault Refusal :=
  .next (takeCommand .setWatch setWatchReply c s)

/-- CLEAR WATCH as the lease manager takes it (R105). -/
def clearWatchReply (c : Client) (body : List Byte) (s : State) : State × Answer :=
  answerWith s (do
      let i ← s.soleHandle c body
      let (cl, h) ← (s.entry i).body.needHeld
      pure (i, cl, h))
    fun p => (s.setBody p.1 (.held p.2.1 { p.2.2 with watch := none }), okWith [boolByte p.2.2.watch.isSome])

/-- CLEAR_WATCH (R105). -/
def execClearWatch (c : Client) (s : State) : Host.Outcome State Fault Refusal :=
  .next (takeCommand .clearWatch clearWatchReply c s)

/-! ## SET PULSE -/

/-- The setting that a SET PULSE gives: each field from the command, or as it stands in the group in force (R123). -/
def PulseRequest.setting (r : PulseRequest) (p : PulseSetting) : PulseSetting :=
  ⟨r.divider.getD p.divider, r.period.getD p.period, r.highs.getD p.highs⟩

/-- The checks of SET PULSE (R122). -/
def State.setPulseChecks (s : State) (c : Client) (body : List Byte) :
    Check (Slot × Claim × Held × PulseGroup × PulseRequest) := do
  let (h, rest) ← handleFirst body
  let r ← pulseRequest rest
  let i ← s.resolve c false h
  let (cl, held) ← (s.entry i).body.needExclusive
  let g ← need held.pulse .mode
  ensure (match r.highs with | none => true | some hs => decide (hs.length = (pulseLines held.configs).length)) .badArgument
  ensure ((r.setting g.setting).highs.all fun x => decide (x ≤ (r.setting g.setting).period)) .badArgument
  pure (i, cl, held, g, r)

/-- The update that a SET PULSE stores (R123). -/
def PulseRequest.update (r : PulseRequest) (p : PulseSetting) : PulseUpdate :=
  ⟨r.setting p, r.divider.isSome, r.period.isSome, r.highs.isSome⟩

/-- The generator record that gives the count of the group of a slot; its generators agree (R120). -/
def State.groupRecord (s : State) (i : Slot) : Option Running :=
  allGenerators.findSome? fun g => s.generators[g].recordFor i

/-- The pulse-clock counts left before the group's next wrap (R123). -/
def State.countsToWrap (s : State) (i : Slot) (p : PulseSetting) : Nat :=
  match s.groupRecord i with
  | none => p.period
  | some r => p.period - r.count

/-- SET PULSE as the lease manager takes it (R123). -/
def setPulseReply (c : Client) (body : List Byte) (s : State) : State × Answer :=
  answerWith s (s.setPulseChecks c body) fun p =>
    let g := p.2.2.2.1
    (s.setBody p.1 (.held p.2.1 { p.2.2.1 with pulse := some { g with update := some (p.2.2.2.2.update g.setting) } }),
      okWith (boolByte g.update.isSome :: bytes16 (s.countsToWrap p.1 g.setting)))

/-- SET_PULSE (R123). -/
def execSetPulse (c : Client) (s : State) : Host.Outcome State Fault Refusal :=
  .next (takeCommand .setPulse setPulseReply c s)

end Sys2Proof.Machine
end

