-- ==== Sys2Proof/Machine/Clocked.lean ====
section
/-!
DEFINITION. The other events of the oscillator: LINE_SAMPLE (sections 5.1, 5.5), PULSE_CLOCK_COUNT and GENERATOR_WRAP
(chapter 6), and the passing of one oscillator period in which no row is taken (log 2).
-/

namespace Sys2Proof.Machine

/-! ## The sampler -/

/-- A flip to the new level matches the sense (R107). -/
def Sense.matches (sense : Sense) (new : Level) : Bool :=
  match sense with
  | .rising => new = .high
  | .falling => new = .low
  | .both => true

/-- One filter step of a watched line, and whether it completes a flip (R106). -/
def WatchedLine.step (filter : Nat) (w : WatchedLine) (sample : Level) : WatchedLine × Bool :=
  if sample = w.stable then ({ w with run := 0 }, false)
  else if w.run + 1 = filter then ({ w with stable := sample, run := 0 }, true)
  else ({ w with run := w.run + 1 }, false)

/-- A watch after one sample of all lines (R96, R106). -/
def Watch.step (w : Watch) (samples : Vector Level 24) : Watch :=
  { w with lines := w.lines.map fun x => (x.step w.filter samples[x.line]).1 }

/-- The lines of a watch whose flip at this sample matches their sense (R107). -/
def Watch.edges (w : Watch) (samples : Vector Level 24) : List Line :=
  (w.lines.filter fun x => (x.step w.filter samples[x.line]).2 && x.sense.matches samples[x.line]).map WatchedLine.line

/-- The watch of an entry. -/
def EntryBody.watch : EntryBody → Option Watch
  | .held _ h => h.watch
  | _ => none

/-- An entry after its watch takes one sample. -/
def EntryBody.sampled (b : EntryBody) (samples : Vector Level 24) : EntryBody :=
  match b with
  | .held cl h => .held cl { h with watch := h.watch.map fun w => w.step samples }
  | b => b

/-- The lines that an entry's watch posts EDGE for at this sample. -/
def EntryBody.edges (b : EntryBody) (samples : Vector Level 24) : List Line :=
  match b.watch with
  | none => []
  | some w => w.edges samples

/-- One sample of all 24 pads: every last sample is replaced, and every watch takes its filter steps (R96). -/
def State.takeSample (s : State) (samples : Vector Level 24) : State :=
  { s with
    lastSample := samples
    samplePosition := 0
    entries := tabulate fun i => ⟨(s.entry i).generation, (s.entry i).body.sampled samples⟩
    notices := tabulate fun i => ((s.entry i).body.edges samples).foldl PendingSet.withEdge (s.noticesOf i) }

/-- LINE_SAMPLE (R94, R96): at the end of the sample interval and at no other moment (log 3). No sample is taken during a
reset (log 19). -/
def execLineSample (driven level : LineSet) (s : State) : Host.Outcome State Fault Refusal :=
  .next (if s.phase.active && s.sampleDue then (s.takeSample (tabulate (s.sampledLevel driven level))).settleAttention
    else s)

/-! ## The pulse bank -/

/-- Replace the records of the generators of the lease in a slot. -/
def State.mapGroup (s : State) (i : Slot) (f : Running → Running) : State :=
  { s with
    generators := tabulate fun g =>
      match s.generators[g].recordFor i with
      | some r => .running (f r)
      | none => s.generators[g] }

/-- The high count that a setting gives a line of a lease; a line without one keeps its own. -/
def highFor (configs : LineConfigs) (p : PulseSetting) (l : Line) (old : Nat) : Nat :=
  (((pulseLines configs).zip p.highs).lookup l).getD old

/-- A generator after the wrap that applies an update (R124). -/
def Running.updated (configs : LineConfigs) (p : PulseSetting) (r : Running) : Running :=
  { r with
    divider := p.divider
    period := p.period
    high := highFor configs p r.line r.high
    count := 0
    prescale := 0
    counting := false }

/-- A generator after a wrap without an update (R118). -/
def Running.wrapped (r : Running) : Running := { r with count := 0, prescale := 0, counting := false }

/-- A generator one pulse-clock count further (R117). -/
def Running.advanced (r : Running) : Running := { r with count := r.count + 1, counting := false }

/-- Apply the pending update of a HELD lease at its group's wrap, and post PULSE_APPLIED (R124). -/
def State.applyUpdate (s : State) (i : Slot) (cl : Claim) (h : Held) (g : PulseGroup) (u : PulseUpdate) : State :=
  (((s.mapGroup i (Running.updated h.configs u.setting)).setBody i
    (.held cl { h with pulse := some { g with setting := u.setting, update := none } })).postPulseApplied i).settleAttention

/-- The pending update of an entry's pulse group. -/
def EntryBody.pendingUpdate : EntryBody → Option (Claim × Held × PulseGroup × PulseUpdate)
  | .held cl h =>
    match h.pulse with
    | none => none
    | some g => g.update.map fun u => (cl, h, g, u)
  | _ => none

/-- The wrap of the group of a slot: its generators return to count 0, and a pending update is applied (R118, R124). -/
def State.wrapGroup (s : State) (i : Slot) : State :=
  match (s.entry i).body.pendingUpdate with
  | some (cl, h, g, u) => s.applyUpdate i cl h g u
  | none => s.mapGroup i Running.wrapped

/-- The pulse-clock count of the group of a slot is to be taken (R117). -/
def State.groupDue (s : State) (i : Slot) : Bool :=
  match s.groupRecord i with
  | none => false
  | some r => r.counting

/-- The next pulse-clock count takes the group of a slot past its period (R118). -/
def State.atWrap (s : State) (i : Slot) : Bool :=
  match s.groupRecord i with
  | none => false
  | some r => r.period ≤ r.count + 1

/-- One pulse-clock count of the group of a slot (R117, R118). -/
def State.countGroup (s : State) (i : Slot) : State :=
  if s.atWrap i then s.wrapGroup i else s.mapGroup i Running.advanced

/-- PULSE_CLOCK_COUNT (R117), of the generators of one lease together (log 14): when their prescale position has reached the
divider, and at no other moment (log 3). -/
def execPulseClockCount (i : Slot) (s : State) : Host.Outcome State Fault Refusal :=
  .next (if s.groupDue i then s.countGroup i else s)

/-- GENERATOR_WRAP (R118): the pulse-clock count that takes the group past period − 1. Nothing changes where the group is not
there (log 3, log 15). -/
def execGeneratorWrap (i : Slot) (s : State) : Host.Outcome State Fault Refusal :=
  .next (if s.groupDue i && s.atWrap i then s.wrapGroup i else s)

/-! ## One oscillator period (log 2) -/

/-- A RUNNING generator one oscillator period further: the prescale position rises by 1, and returns to 0 where it reaches
the divider, with a pulse-clock count to be taken (R117). -/
def Running.afterPeriod (r : Running) : Running :=
  if r.prescale + 1 < r.divider then { r with prescale := r.prescale + 1 }
  else { r with prescale := 0, counting := true }

/-- A generator one oscillator period further. -/
def Generator.afterPeriod : Generator → Generator
  | .free => .free
  | .running r => .running r.afterPeriod

/-- The phase one oscillator period further. -/
def Phase.afterPeriod : Phase → Phase
  | .initializing n => .initializing (n + 1)
  | p => p

/-- One oscillator period passes in every clocked block. The tick of an earlier instant has reached every record (R77). -/
def State.afterPeriod (s : State) : State :=
  { s with
    phase := s.phase.afterPeriod
    tickPosition := s.tickPosition + 1
    entryTicks := Vector.replicate 32 false
    clientTicks := Vector.replicate 8 false
    samplePosition := s.samplePosition + 1
    generators := tabulate fun g => s.generators[g].afterPeriod
    inFlight := s.inFlight.map fun r => { r with elapsed := r.elapsed + 1 } }

/-- What a step does with no command waiting: one oscillator period passes, unless a clocked row is due or a tick has
still to arrive, which come first, or the part is in reset (log 2). -/
def State.idle (s : State) : State := if s.phase.active && !s.someDue then s.afterPeriod else s

end Sys2Proof.Machine
end

