-- ==== Sys2Proof/Machine/NoticeCommands.lean ====
section
/-!
DEFINITION. FETCH_NOTICE (section 8.3).
-/

namespace Sys2Proof.Machine

/-- The slots in the order in which a fetch examines them: upward from the cursor plus 1, wrapping, the cursor's own slot
last (R151). -/
def fetchOrder (cursor : Slot) : List Slot := allSlots.map fun k => cursor + 1 + k

/-- The next entry that a lease fetch of the client returns (R151). -/
def State.fetchSlot (s : State) (c : Client) : Option Slot :=
  (fetchOrder s.cursors[c]).find? fun i => (s.entry i).body.ownedBy c && (s.noticesOf i ≠ PendingSet.empty)

/-- The reasons byte of a LEASE body (Table 10-8). -/
def PendingSet.reasonsByte (p : PendingSet) : Byte :=
  byteOf ((if p.granted then 1 else 0) + (if p.due then 2 else 0) + (if p.ended.isSome then 4 else 0)
    + (if p.edge.isSome then 8 else 0) + (if p.converted then 16 else 0) + if p.pulseApplied then 32 else 0)

/-- The remaining term of an entry, 0 where it has none (R83). -/
def EntryBody.remaining : EntryBody → Nat
  | .held _ h => h.remaining
  | _ => 0

/-- The payloads of a LEASE body, in the order of the reason bits (R189). -/
def payloadBytes (b : EntryBody) (p : PendingSet) : List Byte :=
  (if p.due then bytes16 b.remaining else [])
    ++ (match p.ended with | none => [] | some r => [r.code])
    ++ (match p.edge with | none => [] | some e => maskBytes e.changed ++ [byteOf e.count])
    ++ (if p.converted then (match b.result with | none => [] | some r => r.lineStatusValue) else [])

/-- A result slot with its OVERRUN mark clear (R152). -/
def ConvResult.cleared (r : ConvResult) : ConvResult := { r with overrun := false }

/-- An entry after a fetch that returned CONVERTED: the OVERRUN mark of its result slot is clear (R152). -/
def EntryBody.overrunCleared : EntryBody → EntryBody
  | .held cl h => .held cl { h with result := h.result.map ConvResult.cleared }
  | .ended cl t => .ended cl { t with result := t.result.map ConvResult.cleared }
  | b => b

/-- A lease fetch: the entry's set is emptied, the OVERRUN mark is cleared with CONVERTED, and the cursor takes the slot
(R151, R152). -/
def State.fetchLease (s : State) (c : Client) (i : Slot) : State :=
  let b := (s.entry i).body
  { (s.setBody i (if (s.noticesOf i).converted then b.overrunCleared else b)).discardNotices i with
    cursors := s.cursors.set c i }

/-- The first byte of the body: the kind, and the more-pending indicator in bit 7 (R189). -/
def kindByte (kind : Nat) (more : Bool) : Byte := byteOf (kind + if more then 128 else 0)

/-- The body of a LEASE response, for the entry as it stood (R152, R189). -/
def State.leaseBody (s : State) (i : Slot) (more : Bool) : List Byte :=
  let e := s.entry i
  [kindByte 2 more, handleByte e.generation i, byteOf e.body.stateCode, (s.noticesOf i).reasonsByte]
    ++ payloadBytes e.body (s.noticesOf i)

/-- The choice of a FETCH NOTICE: a client reason first, else the next lease, else nothing (R151). -/
def State.fetch (s : State) (c : Client) : State × Answer :=
  match s.gained[c] with
  | some giver =>
    let t : State := { s with gained := s.gained.set c none }
    (t.settleAttention, okWith [kindByte 1 (t.hasNotice c), 0x01, byteOf giver.val])
  | none =>
    match s.fetchSlot c with
    | some i =>
      let t := s.fetchLease c i
      (t.settleAttention, okWith (s.leaseBody i (t.hasNotice c)))
    | none => (s, okWith [kindByte 0 false])

/-- FETCH NOTICE as the notice unit takes it (R151). -/
def fetchNoticeReply (c : Client) (body : List Byte) (s : State) : State × Answer :=
  answerWith s (emptyBody body) fun _ => s.fetch c

/-- FETCH_NOTICE (R151). -/
def execFetchNotice (c : Client) (s : State) : Host.Outcome State Fault Refusal :=
  .next (takeCommand .fetchNotice fetchNoticeReply c s)

end Sys2Proof.Machine
end

