-- ==== Sys2Proof/Machine/Ports.lean ====
section
/-!
DEFINITION. The two host ports and the frame checks (sections 10.1 to 10.4): the rows PORT_I_WRITE, PORT_I_READ,
PORT_S_COMMAND_WINDOW, PORT_S_FETCH_WINDOW and FRAME_ARRIVAL.
-/

namespace Sys2Proof.Machine

/-! ## Frames -/

/-- No byte of a frame received yet. -/
def FrameIn.empty : FrameIn := ⟨[], 0⟩

/-- One more byte: the first 45 are stored, all are counted (R176, R179). -/
def FrameIn.add (f : FrameIn) (b : Byte) : FrameIn :=
  ⟨if f.count < Config.storedFrameBytes then f.bytes ++ [b] else f.bytes, f.count + 1⟩

/-- The TAG of a response to a frame: its third byte, or 00h if fewer than three bytes came (R181). -/
def FrameIn.tag (f : FrameIn) : Byte := f.bytes[2]?.getD 0

/-- The five frame checks, in their order; a frame that passes is the command to accept (R181). -/
def State.frameCheck (s : State) (c : Client) (f : FrameIn) : Except Status Accepted :=
  match f.bytes with
  | len :: code :: tag :: epoch :: rest =>
    if f.count ≠ len.toNat + 1 ∨ f.count < 5 ∨ 45 < f.count then .error .badLength
    else if f.bytes.getLast? ≠ some (checkValue f.bytes.dropLast) then .error .badCheck
    else
      match commandOfByte code with
      | none => .error .unknownCommand
      | some cmd =>
        if cmd ≠ .attach ∧ (s.client c).attached = false then .error .notAttached
        else if cmd ≠ .attach ∧ epoch ≠ (s.client c).epoch then .error .staleSession
        else .ok ⟨tag, cmd, rest.dropLast⟩
  | _ => .error .badLength

/-- An unread response is discarded, and the slot remembers it (R182). -/
def State.noteUnread (s : State) (c : Client) : State :=
  match (s.slot c).state with
  | .ready _ => s.setSlot c { s.slot c with previousUnread := true }
  | _ => s

/-- The session count after a keepalive: equal to the timeout, if that is not 0 (R164). -/
def ClientRecord.kept (r : ClientRecord) : ClientRecord :=
  { r with count := if r.timeout = 0 then none else some r.timeout }

/-- The keepalive of an accepted frame. An ATTACH reloads nothing at its acceptance (R164). -/
def State.keepalive (s : State) (c : Client) (cmd : Command) : State :=
  if cmd = .attach then s else s.setClient c (s.client c).kept

/-- Accept a command: reload the session count, and make the slot BUSY with the command (R182). -/
def State.accept (s : State) (c : Client) (a : Accepted) : State :=
  let s := (s.keepalive c a.command).noteUnread c
  s.setSlot c { s.slot c with state := .busy a }

/-- A frame arrives for a client: it is refused by the first frame check that it fails, or accepted (R181, R182). A frame
that reaches a BUSY slot is not taken (Table 10-2). -/
def State.frameArrives (s : State) (c : Client) (f : FrameIn) : State :=
  match (s.slot c).state with
  | .busy _ => s
  | _ =>
    match s.frameCheck c f with
    | .error st => (s.noteUnread c).respond c f.tag ⟨st, []⟩
    | .ok a => s.accept c a

/-- A read of a READY slot has passed the last bit of CHECK: the slot returns to NONE (R184). -/
def State.finishRead (s : State) (c : Client) : State := s.setSlot c { s.slot c with state := .none }

/-- Shift one byte out: the byte on the wire, the rest, and whether this byte was the CHECK of a READY response
(R177, R184). -/
def ReadOut.shift (r : ReadOut) : Byte × ReadOut × Bool :=
  match r.rest with
  | [] => (0xFF, r, false)
  | [b] => (b, ⟨[], false⟩, r.throughCheck)
  | b :: rest => (b, ⟨rest, r.throughCheck⟩, false)

/-! ## Port I (section 10.1) -/

/-- The base address that straps AS1 and AS0 select (Table 9-2). -/
def baseAddress (st : Straps) : Nat :=
  match st.as1, st.as0 with
  | false, false => 0x20
  | false, true => 0x28
  | true, false => 0x50
  | true, true => 0x58

/-- The client that an address on Port I names, after initialization (R158, R175, R176). -/
def State.addressed (s : State) (a : BitVec 7) : Option Client :=
  if s.phase = .running then portIClients.find? fun k => baseAddress s.straps + k.val = a.toNat else none

/-- The bus is free: no transaction is addressed to the part. -/
def State.busFree (s : State) : State := { s with portI := { s.portI with bus := .idle } }

/-- STOP or repeated START on Port I: the transaction ends, and a write with data bytes is a frame that arrives now
(R176). -/
def State.busStop (s : State) : State :=
  match s.portI.bus with
  | .writing c f => if f.count = 0 then s.busFree else s.busFree.frameArrives c f
  | _ => s.busFree

/-- START: a transaction still open ends first, as by a repeated START (log 7), and an address byte follows. While a reset
is in progress the part takes no transaction (R176, R177). -/
def State.busStart (s : State) : State :=
  let s := s.busStop
  if s.phase.active then { s with portI := { s.portI with bus := .addressing } } else s

/-- Answer an address byte. -/
def State.answerAddress (s : State) (acked : Bool) (b : BusState) (out : List Byte) : State :=
  { s with portI := ⟨b, acked, out⟩ }

/-- The address byte of a write (R176). -/
def State.writeAddress (s : State) (a : BitVec 7) : State :=
  match s.addressed a with
  | none => s.answerAddress false .idle s.portI.out
  | some c =>
    match (s.slot c).state with
    | .busy _ => s.answerAddress false .idle s.portI.out
    | _ => s.answerAddress true (.writing c FrameIn.empty) s.portI.out

/-- A data byte of a write (R176). -/
def State.writeData (s : State) (b : Byte) : State :=
  match s.portI.bus with
  | .writing c f => { s with portI := { s.portI with bus := .writing c (f.add b) } }
  | _ => s

/-- The address byte of a read: the slot's content at this moment is what the read will shift out (R177). -/
def State.readAddress (s : State) (a : BitVec 7) : State :=
  match s.addressed a with
  | none => s.answerAddress false .idle []
  | some c => s.answerAddress true (.reading c (s.slot c).state.readOut) []

/-- One byte of a read is clocked (R177, R184). -/
def State.readClock (s : State) : State :=
  match s.portI.bus with
  | .reading c r =>
    let (b, rest, through) := r.shift
    let s := { s with portI := { s.portI with bus := .reading c rest, out := s.portI.out ++ [b] } }
    if through then s.finishRead c else s
  | _ => s

/-- An address byte ends: it is one of the part's transaction only if its START came after the last reset began (R176,
R177); whether the part answers is settled now, as it ends (log 27). -/
def State.addressByte (s : State) (answer : State → BitVec 7 → State) (a : BitVec 7) : State :=
  match s.portI.bus with
  | .addressing => answer s a
  | _ => s

/-- PORT_I_WRITE (R176). -/
def execPortIWrite (e : BusWrite) (s : State) : Host.Outcome State Fault Refusal :=
  match e with
  | .start => .next s.busStart
  | .address a => .next (s.addressByte State.writeAddress a)
  | .data b => .next (s.writeData b)

/-- PORT_I_READ (R177). -/
def execPortIRead (e : BusRead) (s : State) : Host.Outcome State Fault Refusal :=
  match e with
  | .start => .next s.busStart
  | .address a => .next (s.addressByte State.readAddress a)
  | .clock => .next s.readClock
  | .stop => .next s.busStop

/-! ## Port S (section 10.2) -/

/-- The window that an opener names for Port S (Table 10-1); the slot's content at this moment is what a fetch window
will shift out (R180). -/
def State.windowOf (s : State) (b : Byte) : WindowState :=
  match b.toNat with
  | 0xC0 => .command 4 FrameIn.empty
  | 0xC1 => .command 5 FrameIn.empty
  | 0xC2 => .command 6 FrameIn.empty
  | 0xC3 => .command 7 FrameIn.empty
  | 0x80 => .fetch 4 (s.slot 4).state.readOut
  | 0x81 => .fetch 5 (s.slot 5).state.readOut
  | 0x82 => .fetch 6 (s.slot 6).state.readOut
  | 0x83 => .fetch 7 (s.slot 7).state.readOut
  | _ => .ignored

/-- The window is closed. -/
def State.windowClosed (s : State) : State := { s with portS := { s.portS with window := .closed } }

/-- The slot remembers a dropped frame (R179). -/
def State.noteDropped (s : State) (c : Client) : State := s.setSlot c { s.slot c with dropped := true }

/-- S_SEL_N rises. The frame of a command window arrives, or is dropped at a BUSY slot; a window with no whole byte after
the opener carries none (R179). -/
def State.windowClose (s : State) : State :=
  match s.portS.window with
  | .command c f =>
    if f.count = 0 then s.windowClosed
    else
      match (s.slot c).state with
      | .busy _ => s.windowClosed.noteDropped c
      | _ => s.windowClosed.frameArrives c f
  | _ => s.windowClosed

/-- S_SEL_N falls, and the opener is to follow (R178). A window still open ends first (log 7). A window that begins during a
reset or the initialization period is ignored to its end, and S_DO stays high impedance in it (DESIGN CHOICE for what of it
comes after that period, log 27). A reset that begins during a window closes it for the part (`State.cleared`), so that
nothing comes of the rest of it. -/
def State.windowOpen (s : State) : State :=
  let s := s.windowClose
  { s with portS := ⟨if s.phase = .running then .opening else .closed, []⟩ }

/-- One whole byte of a window is clocked. The first is the opener, at whose eighth bit the window becomes what Table 10-1
gives; then a command window stores each byte and shows the slot's MARK, a fetch window shifts the slot out, and an ignored
one shows FFh (R178 to R180). -/
def State.windowByte (s : State) (b : Byte) : State :=
  match s.portS.window with
  | .opening => { s with portS := ⟨s.windowOf b, s.portS.out ++ [0xFF]⟩ }
  | .command c f =>
    { s with portS := ⟨.command c (f.add b), s.portS.out ++ [(s.slot c).state.mark]⟩ }
  | .fetch c r =>
    let (o, rest, through) := r.shift
    let s := { s with portS := ⟨.fetch c rest, s.portS.out ++ [o]⟩ }
    if through then s.finishRead c else s
  | .ignored => { s with portS := ⟨.ignored, s.portS.out ++ [0xFF]⟩ }
  | .closed => s

/-- What the controller does in a window of Port S. The opener is the window's first byte, and the part tells it from the
others by that alone (log 26). -/
def State.windowEvent (s : State) (e : WindowEvent) : State :=
  match e with
  | .select => s.windowOpen
  | .opener b => s.windowByte b
  | .byte b => s.windowByte b
  | .close => s.windowClose

/-- PORT_S_COMMAND_WINDOW (R179). -/
def execPortSCommandWindow (e : WindowEvent) (s : State) : Host.Outcome State Fault Refusal := .next (s.windowEvent e)

/-- PORT_S_FETCH_WINDOW (R180). -/
def execPortSFetchWindow (e : WindowEvent) (s : State) : Host.Outcome State Fault Refusal := .next (s.windowEvent e)

/-- FRAME_ARRIVAL (R181): STOP or repeated START on Port I, S_SEL_N rising on Port S. -/
def execFrameArrival (p : Port) (s : State) : Host.Outcome State Fault Refusal :=
  match p with
  | .portI => .next s.busStop
  | .portS => .next s.windowClose

end Sys2Proof.Machine
end

