-- ==== Sys2Proof/Machine/Resets.lean ====
section
/-!
DEFINITION. Resets, straps and initialization (section 9.5): POWER_ON_RESET, RESET_PIN_RESET, SUPPLY_LOW_RESET,
RESET_RELEASE, INITIALIZATION_END and SUPPLY_LOSS.
-/

namespace Sys2Proof.Machine

/-- Every record at its reset value, in a given phase and with a given cause; the queue of commands is not the part's and
stays (R174, log 18). -/
def State.cleared (s : State) (p : Phase) (cause : ResetCause) : State :=
  { State.reset with phase := p, cause := cause, pending := s.pending }

/-- A reset source asserts. While a reset is in progress a second source does not change the cause; without supply there
is nothing to reset (R174, log 17). -/
def State.assertReset (s : State) (cause : ResetCause) : State :=
  match s.phase with
  | .noSupply => s
  | .inReset => s
  | .initializing _ => s.cleared .inReset cause
  | .running => s.cleared .inReset cause

/-- POWER_ON_RESET (R174): the supply rises from below 1.5 V, where the part kept no state. -/
def execPowerOnReset (s : State) : Host.Outcome State Fault Refusal := .next (s.cleared .inReset .powerOn)

/-- RESET_PIN_RESET (R174). -/
def execResetPinReset (s : State) : Host.Outcome State Fault Refusal := .next (s.assertReset .resetPin)

/-- SUPPLY_LOW_RESET (R174). -/
def execSupplyLowReset (s : State) : Host.Outcome State Fault Refusal := .next (s.assertReset .supplyLow)

/-- The holder of supervision that strap SUPV selects (R169). -/
def supvClient (supv : Bool) : Client := if supv then 4 else 0

/-- The reset ends: the straps are sampled and initialization begins (R175, R169). -/
def State.releaseReset (s : State) (st : Straps) : State :=
  match s.phase with
  | .inReset => ({ s with phase := .initializing 0, straps := st, supervisor := supvClient st.supv }).settleAttention
  | _ => s

/-- RESET_RELEASE (R175). Nothing changes where no reset is in progress (log 15). -/
def execResetRelease (as1 as0 supv : Bool) (s : State) : Host.Outcome State Fault Refusal :=
  .next (s.releaseReset ⟨as1, as0, supv⟩)

/-- The 2 ms are over: both ports begin to take frames (R175). -/
def State.endInitialization (s : State) : State :=
  match s.phase with
  | .initializing _ => ({ s with phase := .running }).settleAttention
  | _ => s

/-- INITIALIZATION_END (R175), 2 ms after reset release. Nothing changes at another moment, or where the part is not
initializing (log 3, log 15). -/
def execInitializationEnd (s : State) : Host.Outcome State Fault Refusal :=
  .next (if s.phase.due then s.endInitialization else s)

/-- SUPPLY_LOSS (R174): the supply falls below 1.5 V and all state is lost; the reset that follows records POWER_ON
(log 16). -/
def execSupplyLoss (s : State) : Host.Outcome State Fault Refusal := .next (s.cleared .noSupply .powerOn)

end Sys2Proof.Machine
end

