-- ==== Sys2Proof/Machine/Sessions.lean ====
section
/-!
DEFINITION. The client commands: ATTACH, DETACH, SET_ATTENTION and PING (chapter 9; R155).
-/

namespace Sys2Proof.Machine

/-- The client record as an accepted ATTACH opens its session (R160, steps 1 to 4). -/
def ClientRecord.opened (r : ClientRecord) (timeout : Nat) (attention : Bool) : ClientRecord :=
  { r with
    attached := true
    epoch := r.epoch + 1
    timeout := timeout
    count := if timeout = 0 then none else some timeout
    attention := attention }

/-- The last end reason that the ATTACH response reports (R168). -/
def reportedLastEnd (cause : ResetCause) (e : LastEnd) : Byte :=
  match e with
  | .noneYet => match cause with | .powerOn => e.code | .resetPin => lastEndResetCode | .supplyLow => lastEndResetCode
  | _ => e.code

/-- An ATTACH from an ATTACHED client first tears its session down, with the teardown's grant scan (R161). -/
def State.closeOldSession (s : State) (c : Client) : State :=
  if (s.client c).attached then (s.teardown c .reattached).grantScan else s

/-- Open the new session (R160). -/
def State.openSession (s : State) (c : Client) (timeout : Nat) (attention : Bool) : State :=
  ((s.closeOldSession c).setClient c (((s.closeOldSession c).client c).opened timeout attention)).settleAttention

/-- The body of the ATTACH response (R161). -/
def State.attachBody (s : State) (c : Client) : List Byte :=
  [(s.client c).epoch, s.cause.code, reportedLastEnd s.cause (s.client c).lastEnd, byteOf s.supervisor.val,
    Config.partCode, Config.revision]

/-- The argument checks of ATTACH (R160). -/
def attachRequest (body : List Byte) : Check (Nat × Bool) := do
  let (hi, lo, a) ← threeBytes body
  let attention ← need (attentionOfByte a) .badArgument
  pure (number16 hi lo, attention)

/-- ATTACH as the client table takes it (R160, R161). -/
def attachReply (c : Client) (body : List Byte) (s : State) : State × Answer :=
  answerWith s (attachRequest body) fun r =>
    let t := s.openSession c r.1 r.2
    (t, okWith (t.attachBody c))

/-- ATTACH (R160). -/
def execAttach (c : Client) (s : State) : Host.Outcome State Fault Refusal :=
  .next (takeCommand .attach attachReply c s)

/-- DETACH as the client table takes it (R163, R167). -/
def detachReply (c : Client) (body : List Byte) (s : State) : State × Answer :=
  answerWith s (emptyBody body) fun _ => (((s.teardown c .detached).grantScan).settleAttention, okWith [])

/-- DETACH (R163). -/
def execDetach (c : Client) (s : State) : Host.Outcome State Fault Refusal :=
  .next (takeCommand .detach detachReply c s)

/-- SET ATTENTION as the client table takes it (R155). -/
def setAttentionReply (c : Client) (body : List Byte) (s : State) : State × Answer :=
  answerWith s (do need (attentionOfByte (← oneByte body)) .badArgument) fun a =>
    ((s.setClient c { s.client c with attention := a }).settleAttention, okWith [boolByte a])

/-- SET_ATTENTION (R155). -/
def execSetAttention (c : Client) (s : State) : Host.Outcome State Fault Refusal :=
  .next (takeCommand .setAttention setAttentionReply c s)

/-- PING as the client table takes it (R164). -/
def pingReply (_c : Client) (body : List Byte) (s : State) : State × Answer :=
  answerWith s (emptyBody body) fun _ => (s, okWith [])

/-- PING (R164). -/
def execPing (c : Client) (s : State) : Host.Outcome State Fault Refusal := .next (takeCommand .ping pingReply c s)

end Sys2Proof.Machine
end

