-- ==== Sys2Proof/Machine/Supervision.lean ====
section
/-!
DEFINITION. The supervisor commands, but for SET_CONVERTER: REVOKE, FENCE, UNFENCE, SET_IDLE_PLAN, EVICT, HAND_OVER,
SET_TICK, CLEAR_ALL and SURVEY (R169).
-/

namespace Sys2Proof.Machine

/-! ## REVOKE (R39) -/

/-- REVOKE needs a HELD or WAITING entry; a tombstone is refused with WRONG_STATE (R39). -/
def EntryBody.needLive (b : EntryBody) : Check Claim :=
  match b with
  | .free => refuse .staleHandle
  | .waiting cl _ => .ok cl
  | .held cl _ => .ok cl
  | .ended cl t => wrongState (.ended cl t) cl.kind

/-- The checks of REVOKE (R39). -/
def State.revokeChecks (s : State) (c : Client) (body : List Byte) : Check (Slot × Claim) := do
  s.needSupervisor c
  let h ← oneByte body
  let i ← s.resolve c true h
  let cl ← (s.entry i).body.needLive
  pure (i, cl)

/-- REVOKE as the lease manager takes it (R39). -/
def revokeReply (c : Client) (body : List Byte) (s : State) : State × Answer :=
  answerWith s (s.revokeChecks c body) fun p =>
    (((s.entomb p.1 .revoked).grantScan).settleAttention,
      okWith [byteOf (s.entry p.1).body.stateCode, byteOf p.2.owner.val])

/-- REVOKE (R39). -/
def execRevoke (c : Client) (s : State) : Host.Outcome State Fault Refusal :=
  .next (takeCommand .revoke revokeReply c s)

/-! ## FENCE and UNFENCE (R58, R59) -/

/-- The checks of FENCE and UNFENCE (R58). -/
def State.fenceChecks (s : State) (c : Client) (body : List Byte) : Check (List Line) := do
  s.needSupervisor c
  fenceLines body

/-- FENCE as the lease manager takes it (R58). -/
def fenceReply (c : Client) (body : List Byte) (s : State) : State × Answer :=
  answerWith s (s.fenceChecks c body) fun ls =>
    let m := lineSet ls
    ({ s with fences := s.fences ||| m }, okWith (maskBytes (m &&& ~~~s.fences) ++ maskBytes (s.fences ||| m)))

/-- FENCE (R58). -/
def execFence (c : Client) (s : State) : Host.Outcome State Fault Refusal := .next (takeCommand .fence fenceReply c s)

/-- UNFENCE as the lease manager takes it, with its grant scan (R59). -/
def unfenceReply (c : Client) (body : List Byte) (s : State) : State × Answer :=
  answerWith s (s.fenceChecks c body) fun ls =>
    let m := lineSet ls
    let t : State := { s with fences := s.fences &&& ~~~m }
    (t.grantScan.settleAttention, okWith (maskBytes (m &&& s.fences) ++ maskBytes t.fences))

/-- UNFENCE (R59). -/
def execUnfence (c : Client) (s : State) : Host.Outcome State Fault Refusal :=
  .next (takeCommand .unfence unfenceReply c s)

/-! ## SET IDLE PLAN (R9, R10) -/

/-- The checks of SET IDLE PLAN (R9). -/
def State.setIdlePlanChecks (s : State) (c : Client) (body : List Byte) : Check LineConfigs := do
  s.needSupervisor c
  idlePlanPairs body

/-- No HELD EXCLUSIVE lease contains the line. -/
def State.followsIdlePlan (s : State) (l : Line) : Bool := (s.exclusiveSlot l).isNone

/-- The pairs whose lines follow the idle plan (R10). -/
def State.atOnce (s : State) (ps : LineConfigs) : LineConfigs := ps.filter fun p => s.followsIdlePlan p.1

/-- Store idle plan entries, and apply at once those of lines that no HELD exclusive lease contains (R10). -/
def State.storeIdlePlan (s : State) (ps : LineConfigs) : State :=
  ({ s with idlePlan := tabulate fun l => (configFor ps l).getD s.idlePlan[l] }).configureLines (s.atOnce ps)

/-- The set changed at once: named lines that follow the idle plan and whose effective configuration differs from the new
one (R10). -/
def State.changedAtOnce (s : State) (ps : LineConfigs) : LineSet :=
  lineSet (((s.atOnce ps).filter fun p => s.effective[p.1] ≠ p.2).map Prod.fst)

/-- The set stored behind a lease: named lines in a HELD EXCLUSIVE lease (R10). -/
def State.storedBehind (s : State) (ps : LineConfigs) : LineSet :=
  lineSet ((ps.filter fun p => !s.followsIdlePlan p.1).map Prod.fst)

/-- SET IDLE PLAN as the line controller takes it (R10). -/
def setIdlePlanReply (c : Client) (body : List Byte) (s : State) : State × Answer :=
  answerWith s (s.setIdlePlanChecks c body) fun ps =>
    (s.storeIdlePlan ps, okWith (maskBytes (s.changedAtOnce ps) ++ maskBytes (s.storedBehind ps)))

/-- SET_IDLE_PLAN (R10). -/
def execSetIdlePlan (c : Client) (s : State) : Host.Outcome State Fault Refusal :=
  .next (takeCommand .setIdlePlan setIdlePlanReply c s)

/-! ## EVICT and HAND OVER (R170, R171) -/

/-- A body that is one client number (R170, R171). -/
def clientBody (body : List Byte) : Check Client := do
  let b ← oneByte body
  need (clientOfByte b) .badArgument

/-- The checks of EVICT (R171). -/
def State.evictChecks (s : State) (c : Client) (body : List Byte) : Check Client := do
  s.needSupervisor c
  let n ← clientBody body
  ensure (n ≠ c) .refused
  pure n

/-- Tear an ATTACHED client down for EVICT: its slot is emptied, and a grant scan ends the event (R171, Table 9-5). -/
def State.evict (s : State) (n : Client) : State :=
  (((s.teardown n .evicted).emptySlot n).grantScan).settleAttention

/-- EVICT as the client table takes it (R171). -/
def evictReply (c : Client) (body : List Byte) (s : State) : State × Answer :=
  answerWith s (s.evictChecks c body) fun n =>
    if (s.client n).attached then (s.evict n, okWith [1, byteOf (s.ownedSlots n).length])
    else (s, okWith [0, 0])

/-- EVICT (R171). -/
def execEvict (c : Client) (s : State) : Host.Outcome State Fault Refusal := .next (takeCommand .evict evictReply c s)

/-- The checks of HAND OVER (R170). -/
def State.handOverChecks (s : State) (c : Client) (body : List Byte) : Check Client := do
  s.needSupervisor c
  let n ← clientBody body
  ensure (s.client n).attached .refused
  pure n

/-- Move supervision to another client, and post SUPERVISION_GAINED to it (R170, R150). -/
def State.handOver (s : State) (c n : Client) : State :=
  ({ s with supervisor := n, gained := s.gained.set n (some c) }).settleAttention

/-- HAND OVER as the client table takes it; to the caller itself it changes nothing (R170). -/
def handOverReply (c : Client) (body : List Byte) (s : State) : State × Answer :=
  answerWith s (s.handOverChecks c body) fun n =>
    (if n = c then s else s.handOver c n, okWith [byteOf n.val])

/-- HAND_OVER (R170). -/
def execHandOver (c : Client) (s : State) : Host.Outcome State Fault Refusal :=
  .next (takeCommand .handOver handOverReply c s)

/-! ## SET TICK (R78) -/

/-- The checks of SET TICK (R78). -/
def State.setTickChecks (s : State) (c : Client) (body : List Byte) : Check (Fin 8) := do
  s.needSupervisor c
  let b ← oneByte body
  need (tickRateOfByte b) .badArgument

/-- SET TICK as the tick generator takes it: the rate is set and the interval restarts (R78). -/
def setTickReply (c : Client) (body : List Byte) (s : State) : State × Answer :=
  answerWith s (s.setTickChecks c body) fun r => ({ s with tickRate := r, tickPosition := 0 }, okWith [byteOf r.val])

/-- SET_TICK (R78). -/
def execSetTick (c : Client) (s : State) : Host.Outcome State Fault Refusal :=
  .next (takeCommand .setTick setTickReply c s)

/-! ## CLEAR ALL (R172) -/

/-- The clients that CLEAR ALL tears down: every ATTACHED client other than the caller, ascending (R172). -/
def State.clearedClients (s : State) (c : Client) : List Client :=
  allClients.filter fun n => n ≠ c && (s.client n).attached

/-- One client's part of CLEAR ALL: teardown without a grant scan, and its slot emptied (R172, step 1). -/
def State.clearClient (s : State) (n : Client) : State := (s.teardown n .cleared).emptySlot n

/-- CLEAR ALL: the sessions, then every entry still not FREE, then one grant scan (R172, R49). -/
def State.clearAll (s : State) (c : Client) : State :=
  let t := (s.clearedClients c).foldl State.clearClient s
  ((t.retireAll t.usedSlots).grantScan).settleAttention

/-- A set of clients as a byte, bit k for client k (R190). -/
def clientMask (cs : List Client) : Byte := cs.foldr (fun n m => (1#8 <<< n.val) ||| m) 0

/-- The checks of CLEAR ALL (R172). -/
def State.clearAllChecks (s : State) (c : Client) (body : List Byte) : Check Unit := do
  s.needSupervisor c
  emptyBody body

/-- CLEAR ALL as the client table takes it (R172). -/
def clearAllReply (c : Client) (body : List Byte) (s : State) : State × Answer :=
  answerWith s (s.clearAllChecks c body) fun _ =>
    (s.clearAll c, okWith [byteOf s.usedSlots.length, clientMask (s.clearedClients c)])

/-- CLEAR_ALL (R172). -/
def execClearAll (c : Client) (s : State) : Host.Outcome State Fault Refusal :=
  .next (takeCommand .clearAll clearAllReply c s)

/-! ## SURVEY (R113, R114) -/

/-- The state byte of a surveyed line: mode, effective pull, last sample, fenced (R190). -/
def State.surveyState (s : State) (l : Line) : Byte :=
  let c := s.effective[l]
  byteOf (c.mode.code * 32 + c.effectivePull.code * 8 + s.lastSample[l].code * 4
    + if inSet l s.fences then 1 else 0)

/-- The owner of an entry, 0 for a FREE one. -/
def EntryBody.ownerNumber (b : EntryBody) : Nat :=
  match b.claim with
  | none => 0
  | some cl => cl.owner.val

/-- The holder byte of a surveyed line: NONE, EXCLUSIVE with the owner, or SHARED with the count (R114, R190). -/
def State.surveyHolder (s : State) (l : Line) : Byte :=
  match s.exclusiveSlot l with
  | some i => byteOf (64 + (s.entry i).body.ownerNumber)
  | none => if s.sharedCount l = 0 then 0 else byteOf (128 + s.sharedCount l)

/-- The body of a SURVEY response (R113). -/
def State.surveyBody (s : State) (bank : Byte) (ls : List Line) : List Byte :=
  bank :: ls.flatMap fun l => [s.surveyState l, s.surveyHolder l]

/-- The checks of SURVEY (R113). -/
def State.surveyChecks (s : State) (c : Client) (body : List Byte) : Check (Byte × List Line) := do
  s.needSupervisor c
  let b ← oneByte body
  let ls ← need (bankLines b) .badArgument
  pure (b, ls)

/-- SURVEY as the line sampler takes it (R113). -/
def surveyReply (c : Client) (body : List Byte) (s : State) : State × Answer :=
  answerWith s (s.surveyChecks c body) fun p => (s, okWith (s.surveyBody p.1 p.2))

/-- SURVEY (R113). -/
def execSurvey (c : Client) (s : State) : Host.Outcome State Fault Refusal := .next (takeCommand .survey surveyReply c s)

end Sys2Proof.Machine
end

