-- ==== Sys2Proof/Machine/Ticks.lean ====
section
/-!
DEFINITION. The tick and the countdowns (chapter 4, R72, R73, R165): TICK, TERM_TICK, LAPSE, WAIT_TICK, WAIT_EXPIRY,
SESSION_COUNT_TICK and SESSION_EXPIRY. A tick that TICK emits is on its way to every record until a row of the record
takes it, and the record takes it in the state it is in then (R77, log 4). It does not outlive the instant at which it was
emitted: no time passes while a running countdown has still to take it (State.someDue).
-/

namespace Sys2Proof.Machine

/-- Emit one tick: the interval starts again, and the tick is on its way to every record (R76, R77). -/
def State.emitTick (s : State) : State :=
  { s with
    tickPosition := 0
    entryTicks := Vector.replicate 32 true
    clientTicks := Vector.replicate 8 true }

/-- TICK (R76): at the end of the interval and at no other moment (R79, log 3). No interval runs during a reset (log 19). -/
def execTick (s : State) : Host.Outcome State Fault Refusal :=
  .next (if s.phase.active && s.tickDue then s.emitTick else s)

/-- DUE is posted when the remaining term falls to the due mark (R82). -/
def State.postIfDue (s : State) (i : Slot) (h : Held) : State := if h.due = some h.remaining then s.postDue i else s

/-- A HELD lease with one tick less of its term, and DUE at its due mark (R80, R82). -/
def State.countTerm (s : State) (i : Slot) (cl : Claim) (h : Held) : State :=
  let h : Held := { h with remaining := h.remaining - 1 }
  ((s.setBody i (.held cl h)).postIfDue i h).settleAttention

/-- The lapse of a HELD lease (R87). -/
def State.lapseLease (s : State) (i : Slot) : State := ((s.entomb i .lapsed).grantScan).settleAttention

/-- The expiry of a WAITING entry (R73). -/
def State.expireWait (s : State) (i : Slot) : State := ((s.entomb i .waitExpired).grantScan).settleAttention

/-- A WAITING entry with one tick less of its wait (R72). -/
def State.countWait (s : State) (i : Slot) (cl : Claim) (w : Waiting) (wl : WaitLimit) : State :=
  s.setBody i (.waiting cl { w with wait := some { wl with remaining := wl.remaining - 1 } })

/-- A tick taken by the entry in a slot, in the state it is in (R77): a HELD lease counts its term or lapses, a WAITING
entry with a wait limit counts its wait or expires, and any other entry is not changed. -/
def State.entryTakesTick (s : State) (i : Slot) : State :=
  match (s.entry i).body with
  | .free => s
  | .waiting cl w =>
    match w.wait with
    | none => s
    | some wl => if wl.remaining ≤ 1 then s.expireWait i else s.countWait i cl w wl
  | .held cl h => if h.remaining ≤ 1 then s.lapseLease i else s.countTerm i cl h
  | .ended _ _ => s

/-- A tick on its way reaches the entry in a slot; with none on its way nothing changes (R77). -/
def State.tickReachesEntry (s : State) (i : Slot) : State :=
  if s.entryTicks[i] then ({ s with entryTicks := s.entryTicks.set i false }).entryTakesTick i else s

/-- TERM_TICK (R80). -/
def execTermTick (i : Slot) (s : State) : Host.Outcome State Fault Refusal := .next (s.tickReachesEntry i)

/-- LAPSE (R87): the tick that lowers a remaining term to 0. If a RENEW, RELEASE or another event came first, the tick is
taken in the state that it left (R89, R90). -/
def execLapse (i : Slot) (s : State) : Host.Outcome State Fault Refusal := .next (s.tickReachesEntry i)

/-- WAIT_TICK (R72). -/
def execWaitTick (i : Slot) (s : State) : Host.Outcome State Fault Refusal := .next (s.tickReachesEntry i)

/-- WAIT_EXPIRY (R73): the tick that lowers a remaining wait to 0. If a grant came first, the tick counts against the
remaining term (R74). -/
def execWaitExpiry (i : Slot) (s : State) : Host.Outcome State Fault Refusal := .next (s.tickReachesEntry i)

/-- The expiry of a client's session: teardown with TIMED_OUT, the slot emptied, and a grant scan (R165, R167). -/
def State.expireSession (s : State) (c : Client) : State :=
  (((s.teardown c .timedOut).emptySlot c).grantScan).settleAttention

/-- A tick taken by a client record (R165). -/
def State.clientTakesTick (s : State) (c : Client) : State :=
  match (s.client c).count with
  | none => s
  | some n => if n ≤ 1 then s.expireSession c else s.setClient c { s.client c with count := some (n - 1) }

/-- A tick on its way reaches a client record; with none on its way nothing changes (R77). -/
def State.tickReachesClient (s : State) (c : Client) : State :=
  if s.clientTicks[c] then ({ s with clientTicks := s.clientTicks.set c false }).clientTakesTick c else s

/-- SESSION_COUNT_TICK (R77, R165). -/
def execSessionCountTick (c : Client) (s : State) : Host.Outcome State Fault Refusal := .next (s.tickReachesClient c)

/-- SESSION_EXPIRY (R165): the tick that lowers a session count to 0. If a keepalive came first, the tick lowers the
reloaded count (R166). -/
def execSessionExpiry (c : Client) (s : State) : Host.Outcome State Fault Refusal := .next (s.tickReachesClient c)

end Sys2Proof.Machine
end

