-- ==== Sys2Proof/Machine/Dispatch.lean ====
section
/-!
DEFINITION. The meaning of every command: one direct call per constructor.
-/

namespace Sys2Proof.Machine

def exec (i : Instr) (s : State) : Host.Outcome State Fault Refusal :=
  match i with
  | .portIWrite e => Sys2Proof.Machine.execPortIWrite e s
  | .portIRead e => Sys2Proof.Machine.execPortIRead e s
  | .portSCommandWindow e => Sys2Proof.Machine.execPortSCommandWindow e s
  | .portSFetchWindow e => Sys2Proof.Machine.execPortSFetchWindow e s
  | .frameArrival p => Sys2Proof.Machine.execFrameArrival p s
  | .attach c => Sys2Proof.Machine.execAttach c s
  | .detach c => Sys2Proof.Machine.execDetach c s
  | .setAttention c => Sys2Proof.Machine.execSetAttention c s
  | .ping c => Sys2Proof.Machine.execPing c s
  | .acquire c => Sys2Proof.Machine.execAcquire c s
  | .cancel c => Sys2Proof.Machine.execCancel c s
  | .release c => Sys2Proof.Machine.execRelease c s
  | .renew c => Sys2Proof.Machine.execRenew c s
  | .acknowledge c => Sys2Proof.Machine.execAcknowledge c s
  | .reconfigure c => Sys2Proof.Machine.execReconfigure c s
  | .describe c => Sys2Proof.Machine.execDescribe c s
  | .list c => Sys2Proof.Machine.execList c s
  | .writeLevels c => Sys2Proof.Machine.execWriteLevels c s
  | .readLevels c => Sys2Proof.Machine.execReadLevels c s
  | .setWatch c => Sys2Proof.Machine.execSetWatch c s
  | .clearWatch c => Sys2Proof.Machine.execClearWatch c s
  | .setPulse c => Sys2Proof.Machine.execSetPulse c s
  | .convert c => Sys2Proof.Machine.execConvert c s
  | .fetchNotice c => Sys2Proof.Machine.execFetchNotice c s
  | .revoke c => Sys2Proof.Machine.execRevoke c s
  | .fence c => Sys2Proof.Machine.execFence c s
  | .unfence c => Sys2Proof.Machine.execUnfence c s
  | .setIdlePlan c => Sys2Proof.Machine.execSetIdlePlan c s
  | .evict c => Sys2Proof.Machine.execEvict c s
  | .handOver c => Sys2Proof.Machine.execHandOver c s
  | .setTick c => Sys2Proof.Machine.execSetTick c s
  | .clearAll c => Sys2Proof.Machine.execClearAll c s
  | .survey c => Sys2Proof.Machine.execSurvey c s
  | .setConverter c => Sys2Proof.Machine.execSetConverter c s
  | .tick => Sys2Proof.Machine.execTick s
  | .termTick k => Sys2Proof.Machine.execTermTick k s
  | .lapse k => Sys2Proof.Machine.execLapse k s
  | .waitTick k => Sys2Proof.Machine.execWaitTick k s
  | .waitExpiry k => Sys2Proof.Machine.execWaitExpiry k s
  | .sessionCountTick c => Sys2Proof.Machine.execSessionCountTick c s
  | .sessionExpiry c => Sys2Proof.Machine.execSessionExpiry c s
  | .lineSample driven level => Sys2Proof.Machine.execLineSample driven level s
  | .generatorWrap k => Sys2Proof.Machine.execGeneratorWrap k s
  | .acquisitionEnd microvolts => Sys2Proof.Machine.execAcquisitionEnd microvolts s
  | .sampleConversionEnd vdd => Sys2Proof.Machine.execSampleConversionEnd vdd s
  | .conversionComplete vdd => Sys2Proof.Machine.execConversionComplete vdd s
  | .powerOnReset => Sys2Proof.Machine.execPowerOnReset s
  | .resetPinReset => Sys2Proof.Machine.execResetPinReset s
  | .supplyLowReset => Sys2Proof.Machine.execSupplyLowReset s
  | .resetRelease as1 as0 supv => Sys2Proof.Machine.execResetRelease as1 as0 supv s
  | .initializationEnd => Sys2Proof.Machine.execInitializationEnd s
  | .pulseClockCount k => Sys2Proof.Machine.execPulseClockCount k s
  | .supplyLoss => Sys2Proof.Machine.execSupplyLoss s

end Sys2Proof.Machine
end

