-- ==== Sys2Proof/Safety.lean ====
section
/-!
DEFINITION. What it is for the part to be sound: the laws that the guide states of the records between events, each as a
predicate on State, and the words in which statements about commands are made.
-/

namespace Sys2Proof.Machine

/-! ## Words for statements about commands -/

/-- The client's port has accepted this command, and its owning block has not taken it (R182). -/
def Sent (s : State) (c : Client) (cmd : Command) (tag : Byte) (body : List Byte) : Prop :=
  (s.slot c).state = .busy ⟨tag, cmd, body⟩

/-- The client's handle names this slot: the byte is the slot's handle, and the client owns the entry (R20, R187). -/
def Names (s : State) (c : Client) (h : Byte) (i : Slot) : Prop :=
  h = handleByte (s.entry i).generation i ∧ (s.entry i).body.ownedBy c = true

/-- The commands whose body is a handle alone (Table 10-9). -/
def bareHandleCommands : List Command := [.cancel, .release, .acknowledge, .readLevels, .clearWatch, .revoke]

/-- The body of a lease command names an entry by this handle, and passes the argument checks that need only the command
(R29, stage 2). -/
def NamesHandle (cmd : Command) (h : Byte) (body : List Byte) : Prop :=
  ∃ rest, body = h :: rest ∧
    ((cmd ∈ bareHandleCommands ∧ rest = []) ∨
      (cmd = .renew ∧ ∃ x, renewTerm rest = .ok x) ∨ (cmd = .reconfigure ∧ ∃ x, reconfigurePairs rest = .ok x) ∨
      (cmd = .writeLevels ∧ ∃ x, levelPairs rest = .ok x) ∨ (cmd = .setWatch ∧ ∃ x, watchRequest rest = .ok x) ∨
      (cmd = .setPulse ∧ ∃ x, pulseRequest rest = .ok x) ∨ (cmd = .convert ∧ ∃ x, convertRequest rest = .ok x) ∨
      (cmd = .describe ∧ ∃ p : Part, rest = [p.code]))

/-- The row of the table turns the machine `s` into the machine `u`, but for the response slot of the client, which holds
the response with this status and body (R30, R182). PREVIOUS_UNREAD and DROPPED are the slot's indications, which are
cleared; SUPERVISOR and NOTICE_PENDING are those of the end of the event (R185). -/
def Answers (row : Instr) (s u : State) (c : Client) (tag : Byte) (st : Status) (body : List Byte) : Prop :=
  exec row s =
    .next (u.setSlot c
      ⟨.ready ⟨st, tag, ⟨(s.slot c).dropped, (s.slot c).previousUnread, u.supervisor = c, u.hasNotice c⟩, body⟩,
        false, false⟩)

/-- The command row that takes a command (spec/opcode_table.json). -/
def Command.row (cmd : Command) (c : Client) : Instr :=
  match cmd with
  | .attach => .attach c
  | .detach => .detach c
  | .setAttention => .setAttention c
  | .ping => .ping c
  | .acquire => .acquire c
  | .cancel => .cancel c
  | .release => .release c
  | .renew => .renew c
  | .acknowledge => .acknowledge c
  | .reconfigure => .reconfigure c
  | .describe => .describe c
  | .list => .list c
  | .writeLevels => .writeLevels c
  | .readLevels => .readLevels c
  | .setWatch => .setWatch c
  | .clearWatch => .clearWatch c
  | .setPulse => .setPulse c
  | .convert => .convert c
  | .fetchNotice => .fetchNotice c
  | .revoke => .revoke c
  | .fence => .fence c
  | .unfence => .unfence c
  | .setIdlePlan => .setIdlePlan c
  | .evict => .evict c
  | .handOver => .handOver c
  | .setTick => .setTick c
  | .clearAll => .clearAll c
  | .survey => .survey c
  | .setConverter => .setConverter c

/-- The rows that a reset source or the loss of the supply drives (R174): they end every record. -/
def isResetRow : Instr → Bool
  | .powerOnReset => true
  | .resetPinReset => true
  | .supplyLowReset => true
  | .supplyLoss => true
  | _ => false

/-- The supervisor commands (R169). -/
def supervisorCommands : List Command :=
  [.revoke, .fence, .unfence, .setIdlePlan, .evict, .handOver, .setTick, .clearAll, .survey, .setConverter]

/-- A mode-change report from one set of effective configurations to another sets the DISTURBED mark of the request in
flight when its line's mode differs (R15, R139). -/
def InFlight.disturbedBetween (f : InFlight) (before after : Vector LineConfig 24) : Bool :=
  f.disturbed || decide (before[f.request.line].mode ≠ after[f.request.line].mode)

/-! ## Bodies with a list of lines -/

/-- Pairs of a line number and the byte named after it, as a host sends them (R190). -/
def pairBytes (ps : List (Byte × Byte)) : List Byte := ps.flatMap fun p => [p.1, p.2]

/-- Line numbers that are refused with BAD_LINES: none, more than `most`, one above 23, or one twice (R9, R32, R40, R97,
R103). -/
abbrev LinesRefused (most : Nat) (ls : List Byte) : Prop :=
  ls = [] ∨ most < ls.length ∨ (∃ b ∈ ls, 23 < b.toNat) ∨ ¬ls.Nodup

/-- A configuration byte that names no mode or no pull (Table 10-6, R187). -/
abbrev ConfigRefused (b : Byte) : Prop := 5 ≤ b.toNat / 32 ∨ b.toNat / 8 % 4 = 3

/-- Pairs of a line and a configuration byte that are refused with MODE: one gives PULSE, or ANALOG to a line outside bank C
(R2, R9, R40). -/
abbrev ModesRefused (ps : List (Byte × Byte)) : Prop :=
  ∃ p ∈ ps, p.2.toNat / 32 = 3 ∨ (p.2.toNat / 32 = 4 ∧ p.1.toNat < 16)

/-- The lines of a command's list: 1 to `most`, none twice. -/
abbrev LinesTaken (most : Nat) (ls : List Line) : Prop := 1 ≤ ls.length ∧ ls.length ≤ most ∧ ls.Nodup

/-- New configurations that RECONFIGURE and SET IDLE PLAN take: never PULSE, and ANALOG in bank C alone (R2). -/
abbrev ModesTaken (ps : LineConfigs) : Prop :=
  ∀ p ∈ ps, p.2.mode ≠ .pulse ∧ (p.2.mode = .analog → 16 ≤ p.1.val)

/-- Pairs of a line and a configuration byte, with bits 1–0 of each byte, which are not examined (R187). -/
def configPairBytes (low : Line → Fin 4) (ps : LineConfigs) : List Byte :=
  pairBytes (ps.map fun p => (byteOf p.1.val, byteOf (p.2.byte.toNat + (low p.1).val)))

/-! ## SET PULSE bodies -/

/-- The fields of a SET PULSE as a host sends them after the handle (Table 10-9), with bits 7–3 of the given byte, which are
not examined (log 28). -/
def PulseRequest.bytes (r : PulseRequest) (spare : Nat) : List Byte :=
  byteOf ((if r.divider.isSome then 1 else 0) + (if r.period.isSome then 2 else 0) + (if r.highs.isSome then 4 else 0)
      + 8 * spare)
    :: (match r.divider with | none => [] | some d => [byteOf d])
    ++ (match r.period with | none => [] | some p => bytes16 p)
    ++ (match r.highs with | none => [] | some hs => hs.flatMap bytes16)

/-- The fields fit into their sizes: 1 byte for the divider, 2 for each other number (Table 10-9). -/
abbrev PulseRequest.Fits (r : PulseRequest) : Prop :=
  (∀ d ∈ r.divider, d < 256) ∧ (∀ p ∈ r.period, p < 65536) ∧ ∀ hs ∈ r.highs, ∀ n ∈ hs, n < 65536

/-- A SET PULSE that is refused at the second stage: no field, no divider of the eight, or a period below 2 (R122). -/
abbrev PulseRequest.Refused (r : PulseRequest) : Prop :=
  (r.divider = none ∧ r.period = none ∧ r.highs = none) ∨ (∃ d ∈ r.divider, d ∉ [1, 2, 4, 8, 16, 32, 64, 128]) ∨
    ∃ p ∈ r.period, p < 2

/-! ## ACQUIRE bodies -/

/-- The operands that an ACQUIRE can carry: they are in their ranges and agree with each other (R31, R32). -/
def AcquireRequest.well (r : AcquireRequest) : Bool :=
  decide (1 ≤ r.lines.length) && decide (r.lines.length ≤ 8) && decide (r.lines.Pairwise (· < ·))
    && (match r.kind with
        | .exclusive => decide (r.configs.map Prod.fst = r.lines) && r.configs.all fun p => modeAllowed true p.1 p.2.mode
        | .shared => r.configs.isEmpty)
    && decide (1 ≤ r.term) && decide (r.term ≤ 65535)
    && (match r.due with | none => true | some d => decide (1 ≤ d) && decide (d < r.term))
    && (match r.waitLimit with | none => true | some w => r.mayWait && decide (1 ≤ w) && decide (w ≤ 65535))
    && (match r.pulse with
        | none => (pulseLines r.configs).isEmpty
        | some p =>
          decide (1 ≤ (pulseLines r.configs).length) && decide ((pulseLines r.configs).length ≤ 4)
            && isDivider p.divider && decide (2 ≤ p.period) && decide (p.period ≤ 65535)
            && decide (p.highs.length = (pulseLines r.configs).length) && p.highs.all fun h => decide (h ≤ p.period))

/-- A body of an ACQUIRE with some operands (Table 10-7): the lines in some order, bits 7–3 of the option byte and bits 1–0
of each configuration byte, which are not examined, and a wait limit that may be sent with NO_WAIT (R187, R188). -/
def AcquireRequest.body (r : AcquireRequest) (order : List Line) (spare : Nat) (low : Line → Fin 4) (unused : Option Nat) :
    List Byte :=
  [r.kind.code, boolByte r.mayWait,
      byteOf ((if r.due.isSome then 1 else 0) + (if (r.waitLimit.or unused).isSome then 2 else 0)
        + (if r.pulse.isSome then 4 else 0) + 8 * spare),
      byteOf order.length]
    ++ bytes16 r.term
    ++ (match r.due with | none => [] | some d => bytes16 d)
    ++ (match r.waitLimit.or unused with | none => [] | some w => bytes16 w)
    ++ order.map (fun l => byteOf l.val)
    ++ (order.filterMap fun l => (configFor r.configs l).map fun k => byteOf (k.byte.toNat + (low l).val))
    ++ (match r.pulse with | none => [] | some p => byteOf p.divider :: bytes16 p.period ++ p.highs.flatMap bytes16)

/-- The fields of an ACQUIRE body as a host sends them (Table 10-7): any line and configuration bytes, in their order, and
any numbers. -/
structure AcquireFields where
  kind : Kind
  mayWait : Bool
  term : Nat
  due : Option Nat
  waitLimit : Option Nat
  lines : List Byte
  configs : List Byte
  pulse : Option PulseSetting
  deriving DecidableEq, Repr

/-- The bytes of the fields, with bits 7–3 of the option byte (R188). -/
def AcquireFields.bytes (f : AcquireFields) (spare : Nat) : List Byte :=
  [f.kind.code, boolByte f.mayWait,
      byteOf ((if f.due.isSome then 1 else 0) + (if f.waitLimit.isSome then 2 else 0) + (if f.pulse.isSome then 4 else 0)
        + 8 * spare),
      byteOf f.lines.length]
    ++ bytes16 f.term
    ++ (match f.due with | none => [] | some d => bytes16 d)
    ++ (match f.waitLimit with | none => [] | some w => bytes16 w)
    ++ f.lines ++ f.configs
    ++ (match f.pulse with | none => [] | some p => byteOf p.divider :: bytes16 p.period ++ p.highs.flatMap bytes16)

/-- How many configuration bytes carry the mode PULSE. -/
def AcquireFields.pulseCount (f : AcquireFields) : Nat := (f.configs.filter fun b => b.toNat / 32 = 3).length

/-- The body divides into the fields (R188): as many configuration bytes as lines for EXCLUSIVE and none for SHARED, one high
count for each configuration byte with mode PULSE, and each number in its size. -/
abbrev AcquireFields.Fits (f : AcquireFields) : Prop :=
  f.lines.length < 256 ∧ f.configs.length = (match f.kind with | .exclusive => f.lines.length | .shared => 0) ∧
    f.term < 65536 ∧ (∀ d ∈ f.due, d < 65536) ∧ (∀ w ∈ f.waitLimit, w < 65536) ∧
    ∀ p ∈ f.pulse, p.divider < 256 ∧ p.period < 65536 ∧ p.highs.length = f.pulseCount ∧ ∀ n ∈ p.highs, n < 65536

/-- Fields that R31 refuses with BAD_ARGUMENT. -/
abbrev AcquireFields.ArgumentRefused (f : AcquireFields) : Prop :=
  f.term = 0 ∨ (∃ d ∈ f.due, d = 0 ∨ f.term ≤ d) ∨ (f.mayWait = true ∧ f.waitLimit = some 0) ∨
    (∃ b ∈ f.configs, ConfigRefused b) ∨ 4 < f.pulseCount ∨ (1 ≤ f.pulseCount ∧ f.pulse = none) ∨
    (f.pulseCount = 0 ∧ f.pulse ≠ none) ∨
    ∃ p ∈ f.pulse, p.divider ∉ [1, 2, 4, 8, 16, 32, 64, 128] ∨ p.period < 2 ∨ ∃ n ∈ p.highs, p.period < n

/-- Fields that R32 refuses with MODE: PULSE outside lines 8 to 15, or ANALOG outside lines 16 to 23. -/
abbrev AcquireFields.ModeRefused (f : AcquireFields) : Prop :=
  ∃ p ∈ f.lines.zip f.configs, (p.2.toNat / 32 = 3 ∧ (p.1.toNat < 8 ∨ 15 < p.1.toNat)) ∨
    (p.2.toNat / 32 = 4 ∧ p.1.toNat < 16)

/-! ## The lease table -/

/-- The entry is WAITING. -/
def EntryBody.isWaiting : EntryBody → Bool
  | .waiting _ _ => true
  | _ => false

/-- R56. No line is in more than one HELD EXCLUSIVE lease, and a line in a HELD EXCLUSIVE lease is in no other HELD
lease. -/
def HolderLaw (s : State) : Prop :=
  ∀ i j : Slot, i ≠ j → ∀ l : Line, (s.entry i).body.holdsExclusive l = true →
    (s.entry j).body.holdsExclusive l = false ∧ (s.entry j).body.holdsShared l = false

/-- R64. The wait list holds exactly the WAITING entries, each once, in increasing order of arrival. -/
def WaitListLaw (s : State) : Prop :=
  s.waitList.Nodup ∧ (∀ i : Slot, i ∈ s.waitList ↔ (s.entry i).body.isWaiting = true) ∧
    (s.waitList.map fun i => (s.entry i).body.arrival).Pairwise (· < ·)

/-- A due mark lies from 1 to the term less 1 (R82). -/
def dueWithin (term : Nat) (due : Option Nat) : Bool :=
  match due with
  | none => true
  | some d => 1 ≤ d && d < term

/-- A term is a 2-byte number that is not 0 (R31, R187). -/
def termWithin (term : Nat) : Bool := 1 ≤ term && term ≤ 65535

/-- The counts of an entry lie in their ranges: a remaining term from 1 to the term (R80), a remaining wait from 1 to the
wait limit (R72, R73). -/
def EntryBody.countsWithin : EntryBody → Bool
  | .free => true
  | .waiting cl w =>
    termWithin cl.term && dueWithin cl.term w.due &&
      match w.wait with
      | none => true
      | some wl => 1 ≤ wl.remaining && wl.remaining ≤ wl.limit && wl.limit ≤ 65535
  | .held cl h => termWithin cl.term && dueWithin cl.term h.due && 1 ≤ h.remaining && h.remaining ≤ cl.term
  | .ended cl _ => termWithin cl.term

/-- A session count runs exactly while the client is ATTACHED with a timeout other than 0, from 1 to the timeout
(Table 9-3). -/
def ClientRecord.countWithin (r : ClientRecord) : Bool :=
  r.timeout ≤ 65535 &&
    match r.count with
    | none => !r.attached || r.timeout = 0
    | some n => r.attached && r.timeout ≠ 0 && 1 ≤ n && n ≤ r.timeout

/-- R72, R80, Table 9-3. Every count lies in its range between events. -/
def CountdownLaw (s : State) : Prop :=
  (∀ i : Slot, (s.entry i).body.countsWithin = true) ∧ ∀ c : Client, (s.client c).countWithin = true

/-- R76, R77, R79, R94, R138, R175. No position passes the end of its interval, and a tick that is on its way was emitted at
the present instant: none is once an oscillator period has passed. -/
def ClockLaw (s : State) : Prop :=
  s.tickPosition ≤ tickPeriods s.tickRate ∧ s.samplePosition ≤ Config.samplePeriods ∧
    (∀ n, s.phase = .initializing n → n ≤ Config.initializationPeriods) ∧
    (∀ f, s.inFlight = some f → f.elapsed ≤ f.phasePeriods) ∧
    (s.tickPosition ≠ 0 → (∀ i : Slot, s.entryTicks[i] = false) ∧ ∀ c : Client, s.clientTicks[c] = false)

/-- A command that waits in a slot is an ATTACH, or its client is ATTACHED (R166, R181). -/
def State.waitingCommandServed (s : State) (c : Client) : Bool :=
  match (s.slot c).state with
  | .busy a => a.command = .attach || (s.client c).attached
  | _ => true

/-- R33, R146, R150, R157, R166. A client owns at most 8 entries; a DETACHED client owns none, has no notice and no
command under way but an ATTACH, and its cursor is 31. -/
def SessionLaw (s : State) : Prop :=
  ∀ c : Client, (s.ownedSlots c).length ≤ 8 ∧ s.waitingCommandServed c = true ∧
    ((s.client c).attached = false → s.ownedSlots c = [] ∧ s.gained[c] = none ∧ s.cursors[c] = 31)

/-! ## The records of leases -/

/-- The lines of an entry: 1 to 8 of them, ascending (R21, R32). -/
def Claim.linesWell (cl : Claim) : Bool :=
  decide (1 ≤ cl.lines.length) && decide (cl.lines.length ≤ 8) && decide (cl.lines.Pairwise (· < ·))

/-- The configurations of an entry: one for each line in the order of the lines, in a mode that the line allows, for an
EXCLUSIVE kind; none for SHARED (R2, R21). -/
def configsWell (cl : Claim) (configs : LineConfigs) : Bool :=
  match cl.kind with
  | .exclusive => decide (configs.map Prod.fst = cl.lines) && configs.all fun p => modeAllowed true p.1 p.2.mode
  | .shared => configs.isEmpty

/-- A pulse setting for `k` lines (R31). -/
def PulseSetting.well (k : Nat) (p : PulseSetting) : Bool :=
  isDivider p.divider && decide (2 ≤ p.period) && decide (p.period ≤ 65535) && decide (p.highs.length = k)
    && p.highs.all fun h => decide (h ≤ p.period)

/-- A pulse group is present exactly when some line is PULSE, and for at most 4 (R23). -/
def pulseWell (configs : LineConfigs) (pulse : Option PulseSetting) : Bool :=
  decide ((pulseLines configs).length ≤ 4) &&
    match pulse with
    | none => (pulseLines configs).isEmpty
    | some p => !(pulseLines configs).isEmpty && p.well (pulseLines configs).length

/-- The pulse group of a HELD lease: one generator for each PULSE line, all different, and a whole pending update
(R23, R123). -/
def PulseGroup.well (k : Nat) (g : PulseGroup) : Bool :=
  decide (g.generators.length = k) && decide g.generators.Nodup &&
    match g.update with
    | none => true
    | some u => u.setting.well k

/-- A watch of some lines (R103, R106). -/
def Watch.well (lines : List Line) (w : Watch) : Bool :=
  decide (1 ≤ w.filter) && decide (w.filter ≤ 15) && decide (1 ≤ w.lines.length)
    && decide ((w.lines.map WatchedLine.line).Pairwise (· < ·))
    && w.lines.all fun x => lines.contains x.line && decide (x.run < w.filter)

/-- The record of an entry has the shape that Table 2-1 and its rules give. -/
def EntryBody.recordWell : EntryBody → Bool
  | .free => true
  | .waiting cl w => cl.linesWell && configsWell cl w.configs && pulseWell w.configs w.pulse
  | .held cl h =>
    cl.linesWell && configsWell cl h.configs && pulseWell h.configs (h.pulse.map PulseGroup.setting)
      && (match h.pulse with | none => true | some g => g.well (pulseLines h.configs).length)
      && (match h.watch with | none => true | some w => w.well cl.lines)
  | .ended cl _ => cl.linesWell

/-- R2, R21, R23, R31, R32, R103, R106. Every entry's record has its shape between events. -/
def RecordLaw (s : State) : Prop := ∀ i : Slot, (s.entry i).body.recordWell = true

/-! ## Lines and generators -/

/-- The configuration that an entry gives a line as a HELD lease. -/
def EntryBody.givesConfig (b : EntryBody) (l : Line) : Option LineConfig :=
  match b with
  | .held _ h => configFor h.configs l
  | _ => none

/-- The source of a line's effective configuration: the HELD EXCLUSIVE lease that contains it, if there is one, and
otherwise its idle plan entry (R5). -/
def State.sourceConfig (s : State) (l : Line) : LineConfig :=
  match s.exclusiveSlot l with
  | none => s.idlePlan[l]
  | some i => ((s.entry i).body.givesConfig l).getD s.idlePlan[l]

/-- R5. The effective configuration of every line is that of its source. -/
def SourceLaw (s : State) : Prop := ∀ l : Line, s.effective[l] = s.sourceConfig l

/-- The assignment that a lease records for a generator: its PULSE line with the divider, period and high count that the
generator counts by (R23, R120). -/
structure Assignment where
  line : Line
  divider : Nat
  period : Nat
  high : Nat
  deriving DecidableEq, Repr

/-- The assignment of a generator by an entry, if it is a HELD lease that has been given the generator. -/
def EntryBody.assignment (b : EntryBody) (g : GenIx) : Option Assignment :=
  match b with
  | .held _ h =>
    match h.pulse with
    | none => none
    | some p =>
      (p.generators.zip ((pulseLines h.configs).zip p.setting.highs)).lookup g |>.map fun lh =>
        ⟨lh.1, p.setting.divider, p.setting.period, lh.2⟩
  | _ => none

/-- A generator's record agrees with the leases: RUNNING with the assignment that its lease records, which no other lease
has; FREE where no lease records one (R115). -/
def State.generatorAgrees (s : State) (g : GenIx) : Prop :=
  match s.generators[g] with
  | .free => ∀ i : Slot, (s.entry i).body.assignment g = none
  | .running r =>
    (s.entry r.slot).body.assignment g = some ⟨r.line, r.divider, r.period, r.high⟩ ∧
      r.count < r.period ∧ r.prescale < r.divider ∧ (r.counting = true → r.prescale = 0) ∧
      ∀ i : Slot, i ≠ r.slot → (s.entry i).body.assignment g = none

/-- Two generators of one lease stand at the same count and prescale position (R120), with a pulse-clock count to be taken
of both or of neither. -/
def State.aligned (s : State) (g g' : GenIx) : Bool :=
  match s.generators[g].record, s.generators[g'].record with
  | some r, some r' => r.slot ≠ r'.slot || (r.count = r'.count && r.prescale = r'.prescale && r.counting = r'.counting)
  | _, _ => true

/-- R115, R117, R118, R120, Table 6-1. A generator is RUNNING exactly when a HELD lease has it assigned, with the lease's
settings, below its period, its prescale position below its divider, and in step with the lease's other generators. -/
def GeneratorLaw (s : State) : Prop :=
  (∀ g : GenIx, s.generatorAgrees g) ∧ ∀ g g' : GenIx, s.aligned g g' = true

/-! ## The converter -/

/-- The conversion state of a HELD lease, if the entry is one. -/
def EntryBody.convState : EntryBody → Option ConvState
  | .held _ h => some h.conv
  | _ => none

/-- The claim's lines contain the line, for an entry that is not FREE. -/
def EntryBody.claims (b : EntryBody) (l : Line) : Bool :=
  match b.claim with
  | none => false
  | some cl => cl.lines.contains l

/-- A request of a HELD lease in a conversion state, for one of the lease's lines, of 1, 2, 4 or 8 samples (R134). -/
def State.requestWell (s : State) (v : ConvState) (r : Request) : Bool :=
  decide ((s.entry r.slot).body.convState = some v) && (s.entry r.slot).body.claims r.line
    && decide (r.samples ∈ [1, 2, 4, 8])

/-- The request in flight: some samples are to come, the sum is of codes up to 1023, and without the discard mark its
lease is HELD and IN_FLIGHT (R133, R138, R141). -/
def State.inFlightWell (s : State) (f : InFlight) : Bool :=
  decide (f.request.samples ∈ [1, 2, 4, 8]) && decide (f.done < f.request.samples) && decide (f.sum ≤ 1023 * f.done)
    && (f.discard || s.requestWell .inFlight f.request)

/-- The lease in a slot has a request where its conversion state says so (R136). -/
def State.conversionFound (s : State) (i : Slot) : Bool :=
  match (s.entry i).body.convState with
  | some .queued => decide (i ∈ s.convQueue.map Request.slot)
  | some .inFlight => s.inFlight.any fun f => decide (f.request.slot = i) && !f.discard
  | _ => true

/-- A result slot: a value up to 1023, absent exactly with MODE_LOST, of one of the entry's lines (R140). -/
def EntryBody.resultWell (b : EntryBody) : Bool :=
  match b.result with
  | none => true
  | some r =>
    b.claims r.line &&
      match r.value with
      | none => r.status = .modeLost
      | some v => r.status ≠ .modeLost && decide (v ≤ 1023)

/-- R133, R136, R140, R141. While the converter is IDLE its queue is empty; the queue holds at most 8 requests, each of a
HELD lease whose conversion state is QUEUED, and at most one of each lease; the request in flight is its lease's, or has the
discard mark; results are well formed. -/
def ConverterLaw (s : State) : Prop :=
  (s.inFlight = none → s.convQueue = []) ∧ s.convQueue.length ≤ 8 ∧ (s.convQueue.map Request.slot).Nodup ∧
    (∀ r ∈ s.convQueue, s.requestWell .queued r = true) ∧ (∀ f, s.inFlight = some f → s.inFlightWell f = true) ∧
    ∀ i : Slot, s.conversionFound i = true ∧ (s.entry i).body.resultWell = true

/-! ## Notices -/

/-- The payload of a pending EDGE: 1 to 8 of the entry's lines, and a count from 1 to 255 (R112, Table 8-1). -/
def EdgePayload.well (lines : List Line) (e : EdgePayload) : Bool :=
  e.changed ≠ 0 && e.changed &&& ~~~lineSet lines = 0 && decide (1 ≤ e.count) && decide (e.count ≤ 255)

/-- The reasons that can be pending on an entry in its state (Table 8-2). -/
def EntryBody.noticesWell (b : EntryBody) (p : PendingSet) : Bool :=
  match b with
  | .free => p = PendingSet.empty
  | .waiting _ _ => p = PendingSet.empty
  | .held cl h =>
    p.ended.isNone && (!p.converted || h.result.isSome) && (!p.pulseApplied || h.pulse.isSome)
      && p.edge.all (EdgePayload.well cl.lines)
  | .ended cl t =>
    p.ended.all (fun r => r = t.reason) && (!p.converted || t.result.isSome) && p.edge.all (EdgePayload.well cl.lines)

/-- R46, R146, R149. Pending notices are such as the state of their entry allows. -/
def NoticeLaw (s : State) : Prop := ∀ i : Slot, (s.entry i).body.noticesWell (s.noticesOf i) = true

/-- R156. Each attention line is active exactly when some ATTACHED client of its port with attention enabled has a pending
notice, and released outside operation. -/
def AttentionLaw (s : State) : Prop :=
  (s.attnI = true ↔ s.phase = .running ∧ ∃ c : Client, c.val ≤ 3 ∧ s.wantsAttention c = true) ∧
    (s.attnS = true ↔ s.phase = .running ∧ ∃ c : Client, 4 ≤ c.val ∧ s.wantsAttention c = true)

/-! ## Granting -/

/-- R66. Between events, no WAITING entry meets all four grant conditions, with the entries before it in the wait list as
its older waiters. -/
def SettledLaw (s : State) : Prop :=
  ∀ older newer : List Slot, ∀ i : Slot, s.waitList = older ++ i :: newer → ∀ cl w, (s.entry i).body = .waiting cl w →
    s.grantable older (waitingCandidate cl w) = false

/-! ## Ports, slots and resets -/

/-- A frame being collected: all its bytes are counted and the first 45 stored (R176, R179). -/
def FrameIn.well (f : FrameIn) : Bool := decide (f.bytes.length = min f.count 45)

/-- Port I serves clients 0 to 3 (R158). -/
def BusState.well : BusState → Bool
  | .idle => true
  | .addressing => true
  | .writing c f => decide (c.val ≤ 3) && f.well
  | .reading c _ => decide (c.val ≤ 3)

/-- Port S serves clients 4 to 7 (R158). -/
def WindowState.well : WindowState → Bool
  | .closed => true
  | .opening => true
  | .ignored => true
  | .command c f => decide (4 ≤ c.val) && f.well
  | .fetch c _ => decide (4 ≤ c.val)

/-- The indications of a slot are set only while it is BUSY, and DROPPED only on Port S (R179, R182, R183). -/
def ResponseSlot.well (c : Client) (r : ResponseSlot) : Bool :=
  (decide (4 ≤ c.val) || !r.dropped) &&
    match r.state with
    | .busy _ => true
    | _ => !r.previousUnread && !r.dropped

/-- A response written and not yet read stands in the slot (R182). -/
def SlotState.isReady : SlotState → Bool
  | .ready _ => true
  | _ => false

/-- A command accepted and not yet answered stands in the slot (R182). -/
def SlotState.isBusy : SlotState → Bool
  | .busy _ => true
  | _ => false

/-- A read that will empty the slot is a read of a READY slot (R184). -/
def State.readsReady (s : State) : Bool :=
  (match s.portI.bus with | .reading c r => !r.throughCheck || (s.slot c).state.isReady | _ => true) &&
    match s.portS.window with | .fetch c r => !r.throughCheck || (s.slot c).state.isReady | _ => true

/-- R158, R175, R176, R178, R179, R182, R184. The ports and slots are in order; outside operation no client is addressed, no
window is open, every slot is NONE and every client record is as after reset. -/
def PortLaw (s : State) : Prop :=
  s.portI.bus.well = true ∧ s.portS.window.well = true ∧ s.readsReady = true ∧ (∀ c : Client, (s.slot c).well c = true) ∧
    (s.phase ≠ .running → (s.portI.bus = .idle ∨ s.portI.bus = .addressing) ∧ s.portS.window = .closed ∧
      ∀ c : Client, (s.slot c).state = .none ∧ s.client c = ClientRecord.reset)

/-- R17, R174. While a reset is in progress, and while the supply is below 1.5 V, every record stands at its reset value
(log 16). -/
def ResetLaw (s : State) : Prop :=
  s.phase = .inReset ∨ s.phase = .noSupply → s = { State.reset with phase := s.phase, cause := s.cause, pending := s.pending }

end Sys2Proof.Machine
end

