-- ==== Sys2Proof/Certificates/Slice0/Obligations.lean ====
section
/-!
DEFINITION. The statements about the model. Each docstring names the rules of the guide that its statement comes from, and
the log entries where a choice of the model's own enters.
-/

section Statements

open Sys2Proof Sys2Proof.Machine

/-! ## The queue -/

/-- The command at the front of the queue is taken: a step is its meaning on the machine with the queue's rest. -/
def Obligations.FrontCommandRuns : Prop :=
  ∀ (s : State) (row : Instr) (rest : List Instr), s.pending = row :: rest → step s = exec row { s with pending := rest }

/-- R29, R30. Every row answers a next state: none stops the machine, and none touches the queue (log 18). -/
def Obligations.EveryCommandGoesOn : Prop :=
  ∀ (s : State) (row : Instr), ∃ t, exec row s = .next t ∧ t.pending = s.pending

/-- The model's choice (log 2): with no command waiting, one period of the 8 MHz oscillator passes (R76, R94, R117, R138,
R175), unless a clocked row is due, a tick on its way has still to reach a running countdown (R77), or the part is in reset,
and then nothing changes. A prescale position rises, and returns to 0 at the divider with a pulse-clock count to be taken; a
tick does not outlive its instant (log 4). A row is due when its interval has ended: 8000 periods for each millisecond. -/
def Obligations.EmptyQueuePassesOnePeriod : Prop :=
  ∀ s : State, s.pending = [] →
    ((s.phase.active = true ∧ s.someDue = false) →
      step s = .next { s with
        phase := match s.phase with | .initializing n => .initializing (n + 1) | p => p
        tickPosition := s.tickPosition + 1
        entryTicks := Vector.replicate 32 false
        clientTicks := Vector.replicate 8 false
        samplePosition := s.samplePosition + 1
        generators := tabulate fun g =>
          match s.generators[g] with
          | .free => .free
          | .running r =>
            if r.prescale + 1 < r.divider then .running { r with prescale := r.prescale + 1 }
            else .running { r with prescale := 0, counting := true }
        inFlight := match s.inFlight with | none => none | some f => some { f with elapsed := f.elapsed + 1 } }) ∧
    ((s.phase.active = false ∨ s.someDue = true) → step s = .next s) ∧
    (s.someDue = true ↔
      tickPeriods s.tickRate ≤ s.tickPosition ∨ 8000 ≤ s.samplePosition ∨ (∃ n, s.phase = .initializing n ∧ 16000 ≤ n) ∨
      (∃ f, s.inFlight = some f ∧
        (match f.phase, f.acquisition with
          | .converting _, _ => 96 | .acquiring, .us4 => 32 | .acquiring, .us8 => 64 | .acquiring, .us16 => 128
          | .acquiring, .us32 => 256) ≤ f.elapsed) ∨
      (∃ (g : GenIx) (r : Running), s.generators[g] = .running r ∧ r.counting = true) ∨
      (∃ i : Slot, s.entryTicks[i] = true ∧ ((∃ cl h, (s.entry i).body = .held cl h) ∨
        ∃ cl w, (s.entry i).body = .waiting cl w ∧ w.wait ≠ none)) ∨
      ∃ c : Client, s.clientTicks[c] = true ∧ (s.client c).count ≠ none)

/-! ## Ports and frames -/

/-- R158, R175, R176. After a START, a write's address is acknowledged exactly when it names one of clients 0 to 3 above the
base that the straps select, after initialization, and the client's slot is not BUSY; then every byte is collected, the first
45 stored. A START that finds a transaction open ends it first, with the arrival of its frame (log 7). A reset ends every
transaction for the part, and without a START no other begins; an address byte that ends after initialization is one after it
(the model's choice, log 27). -/
def Obligations.BusWriteCollectsFrame : Prop :=
  (∀ (s : State) (k : Client) (a : BitVec 7), k.val ≤ 3 → s.phase = .running → s.portI.bus = .addressing →
    a.toNat = (if s.straps.as1 then 0x50 else 0x20) + (if s.straps.as0 then 8 else 0) + k.val →
      exec (.portIWrite (.address a)) s = .next { s with
        portI := if (s.slot k).state.isBusy then ⟨.idle, false, s.portI.out⟩ else ⟨.writing k ⟨[], 0⟩, true, s.portI.out⟩ }) ∧
  (∀ (s : State) (a : BitVec 7), s.portI.bus = .addressing →
    (s.phase ≠ .running ∨ ∀ k : Nat, k ≤ 3 →
      a.toNat ≠ (if s.straps.as1 then 0x50 else 0x20) + (if s.straps.as0 then 8 else 0) + k) →
      exec (.portIWrite (.address a)) s = .next { s with portI := ⟨.idle, false, s.portI.out⟩ }) ∧
  (∀ (s : State) (a : BitVec 7), s.portI.bus ≠ .addressing → exec (.portIWrite (.address a)) s = .next s) ∧
  (∀ s t : State, exec (.frameArrival .portI) s = .next t →
    t.portI.bus = .idle ∧
      exec (.portIWrite .start) s = .next (if s.phase.active then { t with portI := { t.portI with bus := .addressing } } else t)) ∧
  ((∀ (s t : State) (row : Instr), exec row s = .next t → isResetRow row = true → s.phase.active = true →
    t.portI = ⟨.idle, false, []⟩) ∧
  (∀ (s t : State) (row : Instr), exec row s = .next t → row ≠ .portIWrite .start → row ≠ .portIRead .start →
    s.portI.bus = .idle → t.portI.bus = .idle)) ∧
  (∀ (s : State) (c : Client) (f : FrameIn) (b : Byte), s.portI.bus = .writing c f →
    exec (.portIWrite (.data b)) s = .next { s with
      portI := { s.portI with
        bus := .writing c ⟨if f.count < 45 then f.bytes ++ [b] else f.bytes, f.count + 1⟩ } }) ∧
  (∀ (s : State) (b : Byte), (∀ c f, s.portI.bus ≠ .writing c f) → exec (.portIWrite (.data b)) s = .next s)

/-- R175, R177, R184, R185. A read shifts out the slot as it is at the address byte: the MARK alone of a NONE or BUSY slot,
the whole response of a READY one, then FFh; the byte that ends a READY response returns the slot to NONE. The START of a
read is that of a write (log 26), and a STOP ends it. -/
def Obligations.BusReadShiftsSlotOut : Prop :=
  (∀ (s : State) (k : Client) (a : BitVec 7), k.val ≤ 3 → s.phase = .running → s.portI.bus = .addressing →
    a.toNat = (if s.straps.as1 then 0x50 else 0x20) + (if s.straps.as0 then 8 else 0) + k.val →
      exec (.portIRead (.address a)) s = .next { s with
        portI := ⟨.reading k
          (match (s.slot k).state with | .none => ⟨[0x00], false⟩ | .busy _ => ⟨[0x3C], false⟩ | .ready r => ⟨r.bytes, true⟩),
          true, []⟩ }) ∧
  (∀ (s : State) (a : BitVec 7), s.portI.bus = .addressing →
    (s.phase ≠ .running ∨ ∀ k : Nat, k ≤ 3 →
      a.toNat ≠ (if s.straps.as1 then 0x50 else 0x20) + (if s.straps.as0 then 8 else 0) + k) →
      exec (.portIRead (.address a)) s = .next { s with portI := ⟨.idle, false, []⟩ }) ∧
  (∀ (s : State) (a : BitVec 7), s.portI.bus ≠ .addressing → exec (.portIRead (.address a)) s = .next s) ∧
  (∀ s : State, exec (.portIRead .start) s = exec (.portIWrite .start) s ∧
    exec (.portIRead .stop) s = exec (.frameArrival .portI) s) ∧
  (∀ (s : State) (c : Client) (b : Byte) (rest : List Byte) (thr : Bool), s.portI.bus = .reading c ⟨b :: rest, thr⟩ →
    exec (.portIRead .clock) s = .next { s with
      portI := { s.portI with bus := .reading c ⟨rest, thr && !rest.isEmpty⟩, out := s.portI.out ++ [b] }
      slots := if thr && rest.isEmpty then s.slots.set c { s.slot c with state := .none } else s.slots }) ∧
  (∀ (s : State) (c : Client) (thr : Bool), s.portI.bus = .reading c ⟨[], thr⟩ →
    exec (.portIRead .clock) s = .next { s with portI := { s.portI with out := s.portI.out ++ [0xFF] } }) ∧
  (∀ s : State, (∀ c r, s.portI.bus ≠ .reading c r) → exec (.portIRead .clock) s = .next s)

/-- R178 to R180, R184. The opener chooses the window of Port S; the two rows of the port are told apart by it alone. A command
window stores what is clocked and shows the slot's MARK. A fetch window shifts out the slot as it is at the opener, whatever
the host sends, then FFh; the byte that ends a READY response returns the slot to NONE. A window ended before its opener's
eighth bit, one with another opener, and one that begins before the end of initialization change nothing. A reset that begins
during a window, before its opener's eighth bit or after it, closes it for the part, and until S_SEL_N falls again no window
opens. That either row of the port acts by the opener alone is the model's inference (log 26), and so is that a fall of
S_SEL_N that finds a window open ends it first (log 7); that a window which begins in the initialization period is ignored to
its end is its choice (log 27). -/
def Obligations.WindowsFollowTheirOpener : Prop :=
  ((∀ (s : State) (e : WindowEvent), exec (.portSCommandWindow e) s = exec (.portSFetchWindow e) s) ∧
  (∀ (s : State) (b : Byte), exec (.portSCommandWindow (.opener b)) s = exec (.portSCommandWindow (.byte b)) s) ∧
  (∀ s t : State, exec (.frameArrival .portS) s = .next t →
    t.portS.window = .closed ∧ exec (.portSCommandWindow .close) s = .next t ∧
      exec (.portSCommandWindow .select) s = .next { t with
        portS := ⟨if s.phase = .running then .opening else .closed, []⟩ }) ∧
  (∀ s : State, s.portS.window = .opening →
    exec (.portSCommandWindow .close) s = .next { s with portS := ⟨.closed, s.portS.out⟩ }) ∧
  ((∀ (s t : State) (row : Instr), exec row s = .next t → isResetRow row = true → s.phase.active = true →
    t.portS = ⟨.closed, []⟩) ∧
  (∀ (s t : State) (row : Instr), exec row s = .next t → row ≠ .portSCommandWindow .select →
    row ≠ .portSFetchWindow .select → s.portS.window = .closed → t.portS.window = .closed)) ∧
  (∀ (s : State) (b : Byte) (c : Client), s.portS.window = .opening → 4 ≤ c.val →
    b.toNat = 0xC0 + (c.val - 4) →
      exec (.portSCommandWindow (.opener b)) s = .next { s with portS := ⟨.command c ⟨[], 0⟩, s.portS.out ++ [0xFF]⟩ }) ∧
  (∀ (s : State) (b : Byte), s.portS.window = .opening →
    ¬(0xC0 ≤ b.toNat ∧ b.toNat ≤ 0xC3) → ¬(0x80 ≤ b.toNat ∧ b.toNat ≤ 0x83) →
      exec (.portSCommandWindow (.opener b)) s = .next { s with portS := ⟨.ignored, s.portS.out ++ [0xFF]⟩ }) ∧
  (∀ (s : State) (b : Byte) (c : Client) (f : FrameIn), s.portS.window = .command c f →
    exec (.portSCommandWindow (.byte b)) s = .next { s with
      portS := ⟨.command c ⟨if f.count < 45 then f.bytes ++ [b] else f.bytes, f.count + 1⟩,
        s.portS.out ++ [match (s.slot c).state with | .none => 0x00 | .busy _ => 0x3C | .ready _ => 0xC3]⟩ }) ∧
  (∀ (s : State) (b : Byte), s.portS.window = .ignored →
    exec (.portSCommandWindow (.byte b)) s = .next { s with portS := ⟨.ignored, s.portS.out ++ [0xFF]⟩ }) ∧
  (∀ (s : State) (b : Byte), s.portS.window = .closed → exec (.portSCommandWindow (.byte b)) s = .next s)) ∧
  ((∀ (s : State) (b : Byte) (c : Client), s.portS.window = .opening → 4 ≤ c.val →
    b.toNat = 0x80 + (c.val - 4) →
      exec (.portSFetchWindow (.opener b)) s = .next { s with
        portS := ⟨.fetch c
          (match (s.slot c).state with | .none => ⟨[0x00], false⟩ | .busy _ => ⟨[0x3C], false⟩ | .ready r => ⟨r.bytes, true⟩),
          s.portS.out ++ [0xFF]⟩ }) ∧
  (∀ (s : State) (c : Client) (sent b : Byte) (rest : List Byte) (thr : Bool),
    s.portS.window = .fetch c ⟨b :: rest, thr⟩ →
      exec (.portSFetchWindow (.byte sent)) s = .next { s with
        portS := ⟨.fetch c ⟨rest, thr && !rest.isEmpty⟩, s.portS.out ++ [b]⟩
        slots := if thr && rest.isEmpty then s.slots.set c { s.slot c with state := .none } else s.slots }) ∧
  (∀ (s : State) (c : Client) (sent : Byte) (thr : Bool), s.portS.window = .fetch c ⟨[], thr⟩ →
    exec (.portSFetchWindow (.byte sent)) s = .next { s with portS := ⟨.fetch c ⟨[], thr⟩, s.portS.out ++ [0xFF]⟩ }))

/-- R164, R176, R179, R181, R182. The five frame checks come in their order, and a frame that passes gives the command with its
tag and body. A frame arrives at STOP or repeated START, or at S_SEL_N rising. A refused frame is answered at once and
reloads nothing. An accepted one makes the slot BUSY with its command and reloads the session count, unless it is an ATTACH.
An unread response is discarded and remembered. At a BUSY slot of Port S the frame is dropped. -/
def Obligations.ArrivingFrameIsChecked : Prop :=
  ((∀ (s : State) (c : Client) (len code tag epoch chk : Byte) (body : List Byte),
    s.frameCheck c ⟨[len, code, tag, epoch] ++ body ++ [chk], body.length + 5⟩ =
      if body.length + 5 ≠ len.toNat + 1 ∨ 45 < body.length + 5 then .error .badLength
      else if chk ≠ checkValue ([len, code, tag, epoch] ++ body) then .error .badCheck
      else
        match commandOfByte code with
        | none => .error .unknownCommand
        | some cmd =>
          if cmd = .attach then .ok ⟨tag, cmd, body⟩
          else if (s.client c).attached = false then .error .notAttached
          else if epoch ≠ (s.client c).epoch then .error .staleSession
          else .ok ⟨tag, cmd, body⟩) ∧
  (∀ (s : State) (c : Client) (f : FrameIn), f.well = true → (f.count < 5 ∨ 45 < f.count) →
    s.frameCheck c f = .error .badLength)) ∧
  ((∀ (s u : State) (row : Instr) (c : Client) (f : FrameIn),
    (row = .frameArrival .portI ∧ s.portI.bus = .writing c f ∧ u = { s with portI := { s.portI with bus := .idle } }) ∨
      (row = .frameArrival .portS ∧ s.portS.window = .command c f ∧
        u = { s with portS := { s.portS with window := .closed } }) →
    (f.count = 0 → exec row s = .next u) ∧
    (0 < f.count → (s.slot c).state.isBusy = false →
      (∀ st, s.frameCheck c f = .error st →
        exec row s = .next (u.setSlot c
          ⟨.ready ⟨st, f.bytes[2]?.getD 0,
            ⟨(s.slot c).dropped, (s.slot c).previousUnread || (s.slot c).state.isReady, s.supervisor = c, s.hasNotice c⟩,
            []⟩, false, false⟩)) ∧
      (∀ a, s.frameCheck c f = .ok a →
        exec row s = .next { u with
          slots := s.slots.set c
            ⟨.busy a, (s.slot c).previousUnread || (s.slot c).state.isReady, (s.slot c).dropped⟩
          clients := if a.command = .attach then s.clients else s.clients.set c { s.client c with
            count := if (s.client c).timeout = 0 then none else some (s.client c).timeout } })) ∧
    (0 < f.count → (s.slot c).state.isBusy = true → row = .frameArrival .portS →
      exec row s = .next (u.setSlot c { s.slot c with dropped := true }))) ∧
  (∀ s : State, (∀ c f, s.portI.bus ≠ .writing c f) →
    exec (.frameArrival .portI) s = .next { s with portI := { s.portI with bus := .idle } }) ∧
  (∀ s : State, (∀ c f, s.portS.window ≠ .command c f) →
    exec (.frameArrival .portS) s = .next { s with portS := { s.portS with window := .closed } }))

/-- R185 to R187, R190, Tables 10-4 to 10-6, 10-10 to 10-12. A response is MARK C3h, LEN, STATUS, TAG, FLAGS, body and CHECK;
CHECK is the CRC-8 of polynomial 2Fh from FFh over LEN to the last body byte, the guide's two computations come out, and a
check value after its bytes leaves 0. The codes are those of the tables, a code byte names at most one command, and a handle
byte and a configuration byte have the places and codes of their fields, whose low bits are not examined. Value codes are
those of Table 10-12, and a byte that names none is none; numbers and masks have their most significant byte first. -/
def Obligations.LayoutsAreThoseOfTheTables : Prop :=
  ((∀ r : Response, r.bytes =
    [0xC3, byteOf (4 + r.body.length), r.status.code, r.tag,
      byteOf ((if r.flags.dropped then 8 else 0) + (if r.flags.previousUnread then 4 else 0)
        + (if r.flags.supervisor then 2 else 0) + if r.flags.noticePending then 1 else 0)]
      ++ r.body ++ [checkValue (r.bytes.tail.take (4 + r.body.length))]) ∧
  (∀ bs : List Byte, checkValue (bs ++ [checkValue bs]) = 0) ∧
  [checkValue [], checkValue [0x04], checkValue [0x04, 0x04], checkValue [0x04, 0x04, 0x01],
    checkValue [0x04, 0x04, 0x01, 0x01]] = [0xFF, 0xFE, 0xD1, 0xAB, 0x99] ∧
  [checkValue [0x04, 0x00], checkValue [0x04, 0x00, 0x01], checkValue [0x04, 0x00, 0x01, 0x02]] = [0x6D, 0x7E, 0xD0]) ∧
  (allCommands.map Command.code =
    [0x01, 0x02, 0x03, 0x04, 0x10, 0x11, 0x12, 0x13, 0x14, 0x15, 0x16, 0x17, 0x20, 0x21, 0x22, 0x23, 0x28, 0x30, 0x38,
      0x40, 0x41, 0x42, 0x43, 0x44, 0x45, 0x46, 0x47, 0x48, 0x49] ∧
  (∀ cmd : Command, cmd ∈ allCommands ∧ commandOfByte cmd.code = some cmd) ∧
  (∀ (b : Byte) (cmd : Command), commandOfByte b = some cmd → cmd.code = b) ∧
  [Status.ok, .queued, .badCheck, .badLength, .unknownCommand, .notAttached, .staleSession, .notSupervisor, .badArgument,
    .badLines, .staleHandle, .notOwner, .wrongState, .ended, .tableFull, .quota, .busy, .fenced, .noGenerator, .queueFull,
    .mode, .refused].map Status.code = (List.range 22).map byteOf ∧
  (∀ (g : Fin 8) (i : Slot), (handleByte g i).toNat = g.val * 32 + i.val ∧ handleSlot (handleByte g i) = i ∧
    handleGeneration (handleByte g i) = g) ∧
  (∀ k : LineConfig, k.byte.toNat =
    (match k.mode with | .input => 0 | .pushPull => 32 | .openDrain => 64 | .pulse => 96 | .analog => 128)
      + (match k.pull with | .none => 0 | .up => 8 | .down => 16) + (match k.level with | .low => 0 | .high => 4)) ∧
  (∀ (k : LineConfig) (n : Nat), n < 4 → configOfByte (byteOf (k.byte.toNat + n)) = some k) ∧
  (∀ b : Byte, configOfByte b = none ↔ 5 ≤ b.toNat / 32 ∨ b.toNat / 8 % 4 = 3)) ∧
  (([Kind.exclusive, .shared].map Kind.code = [0x00, 0x01] ∧ ∀ b k, kindOfByte b = some k ↔ k.code = b) ∧
  ([Part.record, .lines, .pulse, .watch, .result].map Part.code = [0x00, 0x01, 0x02, 0x03, 0x04] ∧
    ∀ b p, partOfByte b = some p ↔ p.code = b) ∧
  ([Sense.rising, .falling, .both].map Sense.code = [0x01, 0x02, 0x03] ∧ ∀ b v, senseOfByte b = some v ↔ v.code = b) ∧
  ([Reference.internal, .supply].map Reference.code = [0x00, 0x01] ∧ ∀ b r, referenceOfByte b = some r ↔ r.code = b) ∧
  ([AcqTime.us4, .us8, .us16, .us32].map AcqTime.code = [0x00, 0x01, 0x02, 0x03] ∧
    ∀ b a, acqTimeOfByte b = some a ↔ a.code = b) ∧
  (∀ b v, levelOfByte b = some v ↔ b = match v with | .low => 0x00 | .high => 0x01) ∧
  (∀ b v, mayWaitOfByte b = some v ↔ b = if v then 0x01 else 0x00) ∧
  (∀ b v, attentionOfByte b = some v ↔ b = if v then 0x01 else 0x00) ∧
  (∀ b v, scopeOfByte b = some v ↔ b = if v then 0x01 else 0x00) ∧
  [EndReason.lapsed, .revoked, .waitExpired].map EndReason.code = [0x01, 0x02, 0x03] ∧
  [ConvState.none, .queued, .inFlight].map ConvState.code = [0x00, 0x01, 0x02] ∧
  (∀ b : EntryBody, b.stateCode = match b with | .free => 0 | .waiting _ _ => 1 | .held _ _ => 2 | .ended _ _ => 3)) ∧
  ((∀ n : Nat, n < 65536 → ∃ hi lo, bytes16 n = [hi, lo] ∧ hi.toNat * 256 + lo.toNat = n) ∧
  (∀ m : LineSet, ∃ a b c, maskBytes m = [a, b, c] ∧ a.toNat * 65536 + b.toNat * 256 + c.toNat = m.toNat) ∧
  (∀ (l : Line) (m : LineSet), inSet l m = m.toNat.testBit l.val))

/-! ## What every command does -/

/-- R29, R30, R154, R166, R169, R182, R185. A command that its port has accepted is answered in the client's slot, with the
tag of its frame, the slot's two indications, which are cleared, and the SUPERVISOR and NOTICE_PENDING flags of the end of
the event. Unless its status is OK or QUEUED nothing but the slot has changed. Where the slot holds no such command, nothing
is taken and nothing changes (log 5). -/
def Obligations.EveryCommandIsAnswered : Prop :=
  (∀ (s t : State) (c : Client) (cmd : Command) (tag : Byte) (body : List Byte), Sent s c cmd tag body →
    exec (cmd.row c) s = .next t →
      ∃ st bytes, t.slot c = ⟨.ready ⟨st, tag,
          ⟨(s.slot c).dropped, (s.slot c).previousUnread, t.supervisor = c, t.hasNotice c⟩, bytes⟩, false, false⟩ ∧
        (st ≠ .ok → st ≠ .queued → t = s.setSlot c (t.slot c))) ∧
  (∀ (s : State) (c : Client) (cmd : Command), (∀ tag body, ¬Sent s c cmd tag body) → exec (cmd.row c) s = .next s)

/-- R29, R43, R169. A supervisor command, or a LIST with scope ALL, from a client that does not hold supervision is refused
with NOT_SUPERVISOR, whatever its body, and changes nothing (log 12). -/
def Obligations.SupervisorRightsComeFirst : Prop :=
  (∀ (s : State) (c : Client) (cmd : Command) (tag : Byte) (body : List Byte), cmd ∈ supervisorCommands →
    s.supervisor ≠ c → Sent s c cmd tag body → Answers (cmd.row c) s s c tag .notSupervisor []) ∧
  (∀ (s : State) (c : Client) (tag : Byte), s.supervisor ≠ c → Sent s c .list tag [0x01] →
    Answers (.list c) s s c tag .notSupervisor [])

/-- R20, R25 to R30, R36 to R40, R42, R84, R97, R100, R103, R105, R122, R134, R190, R191. A command whose body names a handle
and passes the argument checks that need only the command, REVOKE of the supervisor among them, is checked against the entry
in order: STALE_HANDLE for a FREE entry or another generation, NOT_OWNER (but for a REVOKE or a DESCRIBE of the supervisor),
then the state that the command does not apply to: WRONG_STATE with the entry's state and kind, also for a SHARED lease where
the command needs an EXCLUSIVE one, or ENDED with the end reason. Of the commands that carry a handle alone, and DESCRIBE,
which carries a part too, any other body is refused with BAD_ARGUMENT before that. -/
def Obligations.HandleChecksComeInOrder : Prop :=
  (∀ (s : State) (c : Client) (cmd : Command) (tag h : Byte) (body : List Byte) (i : Slot),
    Sent s c cmd tag body → NamesHandle cmd h body → (cmd = .revoke → s.supervisor = c) → i.val = h.toNat % 32 →
      ((s.entry i).body = .free ∨ (s.entry i).generation.val ≠ h.toNat / 32 →
        Answers (cmd.row c) s s c tag .staleHandle []) ∧
      ((s.entry i).generation.val = h.toNat / 32 →
        (∀ cl, (s.entry i).body.claim = some cl → cl.owner ≠ c → cmd ≠ .revoke → (cmd = .describe → s.supervisor ≠ c) →
          Answers (cmd.row c) s s c tag .notOwner []) ∧
        (∀ cl w, (s.entry i).body = .waiting cl w → cl.owner = c → cmd ∉ [Command.cancel, .describe, .revoke] →
          Answers (cmd.row c) s s c tag .wrongState [0x01, cl.kind.code]) ∧
        (∀ cl hd, (s.entry i).body = .held cl hd → cl.owner = c →
          cmd = .cancel ∨ cmd = .acknowledge ∨ (cl.kind = .shared ∧ cmd ∈ [Command.reconfigure, .writeLevels, .setPulse]) →
          Answers (cmd.row c) s s c tag .wrongState [0x02, cl.kind.code]) ∧
        (∀ cl t, (s.entry i).body = .ended cl t → cl.owner = c → cmd ∉ [Command.acknowledge, .describe, .revoke] →
          Answers (cmd.row c) s s c tag .ended [t.reason.code]) ∧
        (∀ cl t, (s.entry i).body = .ended cl t → cmd = .revoke →
          Answers (cmd.row c) s s c tag .wrongState [0x03, cl.kind.code]))) ∧
  (∀ (s : State) (c : Client) (cmd : Command) (tag : Byte) (body : List Byte), Sent s c cmd tag body →
    (cmd ∈ bareHandleCommands → (cmd = .revoke → s.supervisor = c) → body.length ≠ 1 →
      Answers (cmd.row c) s s c tag .badArgument []) ∧
    (cmd = .describe → (body.length ≠ 2 ∨ ∃ h part, body = [h, part] ∧ 4 < part.toNat) →
      Answers (cmd.row c) s s c tag .badArgument []))

/-- R29, R40, R97, R103, R122, R134. What the commands of a holder compare with the lease's record (stage 5), after the state
checks: every line that they name is in the lease, or BAD_LINES; then RECONFIGURE names no PULSE line and WRITE LEVELS
none but PUSH_PULL and OPEN_DRAIN lines, or MODE; SET PULSE needs a pulse group, or MODE, one new high count for each PULSE
line, and no high count above the period after the update, or BAD_ARGUMENT. Which bodies come to this stage, with which
operands, and what the others are refused with, is said of each command in the statement of its effect. -/
def Obligations.HolderCommandsCheckTheLease : Prop :=
  ∀ (s : State) (c : Client) (tag h : Byte) (rest : List Byte) (i : Slot) (cl : Claim) (hd : Held), Names s c h i →
    (s.entry i).body = .held cl hd →
      (∀ ps, cl.kind = .exclusive → Sent s c .reconfigure tag (h :: rest) → reconfigurePairs rest = .ok ps →
        ((∃ p ∈ ps, p.1 ∉ cl.lines) → Answers (.reconfigure c) s s c tag .badLines []) ∧
        ((∀ p ∈ ps, p.1 ∈ cl.lines) → (∃ p ∈ ps, ∃ k, configFor hd.configs p.1 = some k ∧ k.mode = .pulse) →
          Answers (.reconfigure c) s s c tag .mode [])) ∧
      (∀ ps, cl.kind = .exclusive → Sent s c .writeLevels tag (h :: rest) → levelPairs rest = .ok ps →
        ((∃ p ∈ ps, p.1 ∉ cl.lines) → Answers (.writeLevels c) s s c tag .badLines []) ∧
        ((∀ p ∈ ps, p.1 ∈ cl.lines) →
          (∃ p ∈ ps, ∀ k, configFor hd.configs p.1 = some k → k.mode ≠ .pushPull ∧ k.mode ≠ .openDrain) →
          Answers (.writeLevels c) s s c tag .mode [])) ∧
      (∀ filter ps, Sent s c .setWatch tag (h :: rest) → watchRequest rest = .ok (filter, ps) →
        (∃ p ∈ ps, p.1 ∉ cl.lines) → Answers (.setWatch c) s s c tag .badLines []) ∧
      (∀ l n, Sent s c .convert tag (h :: rest) → convertRequest rest = .ok (l, n) → l ∉ cl.lines →
        Answers (.convert c) s s c tag .badLines []) ∧
      (∀ r : PulseRequest, cl.kind = .exclusive → Sent s c .setPulse tag (h :: rest) → pulseRequest rest = .ok r →
        (hd.pulse = none → Answers (.setPulse c) s s c tag .mode []) ∧
        (∀ g, hd.pulse = some g →
          (∃ hs, r.highs = some hs ∧ hs.length ≠ (pulseLines hd.configs).length) ∨
            (∃ n ∈ r.highs.getD g.setting.highs, r.period.getD g.setting.period < n) →
          Answers (.setPulse c) s s c tag .badArgument []))

/-! ## Sessions -/

/-- R160, R161, R168. An ATTACH opens a session with the next epoch; an ATTACHED client's old session is torn down first,
with the teardown's grant scan. The response reports the reset cause, the last end reason and the supervisor, and no
notice in a state that meets the session law. A body that is not a timeout and an attention code is refused with
BAD_ARGUMENT, and the session in progress stays. -/
def Obligations.AttachOpensSession : Prop :=
  (∀ (s : State) (c : Client) (tag : Byte) (body : List Byte), Sent s c .attach tag body →
    (body.length ≠ 3 ∨ ∃ hi lo a, body = [hi, lo, a] ∧ 1 < a.toNat) → Answers (.attach c) s s c tag .badArgument []) ∧
  ∀ (s v : State) (c : Client) (tag hi lo : Byte) (enabled : Bool),
    Sent s c .attach tag [hi, lo, if enabled then 0x01 else 0x00] →
    v = (if (s.client c).attached then (s.teardown c .reattached).grantScan else s) →
      Answers (.attach c) s
        (({ v with clients := v.clients.set c { v.client c with
            attached := true
            epoch := (s.client c).epoch + 1
            timeout := hi.toNat * 256 + lo.toNat
            count := if hi.toNat * 256 + lo.toNat = 0 then none else some (hi.toNat * 256 + lo.toNat)
            attention := enabled } } : State).settleAttention)
        c tag .ok
        [(s.client c).epoch + 1, match s.cause with | .powerOn => 0x01 | .resetPin => 0x02 | .supplyLow => 0x03,
          if (s.client c).attached then 0x05 else
            match (s.client c).lastEnd with
            | .noneYet => if s.cause = .powerOn then 0x00 else 0x06
            | .detached => 0x01
            | .timedOut => 0x02
            | .evicted => 0x03
            | .cleared => 0x04
            | .reattached => 0x05,
          byteOf s.supervisor.val, 0x24, 0x01] ∧
      (SessionLaw s → v.hasNotice c = false)

/-- R163, R171, R177, R180, R183. DETACH ends the caller's session and EVICT that of another client, whose slot is emptied,
each with its teardown and a grant scan. EVICT of a DETACHED client changes nothing; of the caller it is refused. A slot that
is emptied loses its indications, and a read or fetch window of it gives FFh from then on. A DETACH with a body, and an EVICT
of the supervisor whose body is not one client number up to 7, are refused with BAD_ARGUMENT. -/
def Obligations.DetachAndEvictEndSessions : Prop :=
  (∀ (s : State) (c : Client) (tag : Byte) (body : List Byte), Sent s c .detach tag body →
    (body = [] → Answers (.detach c) s ((s.teardown c .detached).grantScan).settleAttention c tag .ok []) ∧
    (body ≠ [] → Answers (.detach c) s s c tag .badArgument [])) ∧
  (∀ (s : State) (c : Client) (tag : Byte) (body : List Byte), s.supervisor = c → Sent s c .evict tag body →
    (∀ n : Client, body ≠ [byteOf n.val]) → Answers (.evict c) s s c tag .badArgument []) ∧
  (∀ (s : State) (c n : Client) (tag : Byte), Sent s c .evict tag [byteOf n.val] → s.supervisor = c →
    (n ≠ c → (s.client n).attached = true →
      Answers (.evict c) s ((((s.teardown n .evicted).emptySlot n).grantScan).settleAttention) c tag .ok
        [0x01, byteOf (s.ownedSlots n).length]) ∧
    (n ≠ c → (s.client n).attached = false → Answers (.evict c) s s c tag .ok [0x00, 0x00]) ∧
    (n = c → Answers (.evict c) s s c tag .refused [])) ∧
  (∀ (s : State) (n : Client),
    s.emptySlot n = { s with
      slots := s.slots.set n ⟨.none, false, false⟩
      portI := { s.portI with
        bus := match s.portI.bus with | .reading k r => .reading k (if k = n then ⟨[], false⟩ else r) | b => b }
      portS := { s.portS with
        window := match s.portS.window with | .fetch k r => .fetch k (if k = n then ⟨[], false⟩ else r) | w => w } } ∧
    (∀ r, s.portI.bus = .reading n r →
      exec (.portIRead .clock) (s.emptySlot n) =
        .next { s.emptySlot n with portI := ⟨.reading n ⟨[], false⟩, s.portI.acked, s.portI.out ++ [0xFF]⟩ }) ∧
    (∀ r b, s.portS.window = .fetch n r →
      exec (.portSFetchWindow (.byte b)) (s.emptySlot n) =
        .next { s.emptySlot n with portS := ⟨.fetch n ⟨[], false⟩, s.portS.out ++ [0xFF]⟩ }))

/-- R44, R46 to R48, R157, R167. A teardown frees every entry that the client owns and nothing that it does not: the exclusive
lines of its HELD leases return to the idle plan, their generators stop, their conversions are withdrawn or marked discard,
its waiting entries leave the list, each generation advances, and the notices go. The client is DETACHED with its last end
reason. -/
def Obligations.TeardownEndsSession : Prop :=
  ∀ (s t : State) (c : Client) (reason : LastEnd), t = s.teardown c reason →
    (∀ i : Slot, t.entry i =
      if (s.entry i).body.ownedBy c then ⟨(s.entry i).generation + 1, .free⟩ else s.entry i) ∧
    (∀ i : Slot, t.noticesOf i = if (s.entry i).body.ownedBy c then PendingSet.empty else s.noticesOf i) ∧
    t.waitList = s.waitList.filter (fun i => !((s.entry i).body.ownedBy c && (s.entry i).body.isWaiting)) ∧
    (∀ l : Line, t.effective[l] =
      if ∃ i, (s.entry i).body.ownedBy c = true ∧ (s.entry i).body.holdsExclusive l = true then s.idlePlan[l]
      else s.effective[l]) ∧
    (∀ g : GenIx, t.generators[g] =
      match s.generators[g] with
      | .free => .free
      | .running r =>
        if (s.entry r.slot).body.ownedBy c && (s.entry r.slot).body.heldClaim.isSome then .free else .running r) ∧
    t.convQueue = s.convQueue.filter (fun r =>
      !((s.entry r.slot).body.ownedBy c && (s.entry r.slot).body.convState = some .queued)) ∧
    t.inFlight = s.inFlight.map (fun f => { f with
      disturbed := f.disturbedBetween s.effective t.effective
      discard := f.discard || ((s.entry f.request.slot).body.ownedBy c &&
        decide ((s.entry f.request.slot).body.convState = some .inFlight)) }) ∧
    t = { s with
      entries := t.entries, notices := t.notices, waitList := t.waitList, effective := t.effective
      generators := t.generators, convQueue := t.convQueue, inFlight := t.inFlight
      gained := s.gained.set c none
      cursors := s.cursors.set c 31
      clients := s.clients.set c { s.client c with attached := false, count := none, lastEnd := reason } }

/-- R155, R164, R150, R170. PING changes nothing. SET ATTENTION sets the caller's enable and brings the attention lines into
agreement. HAND OVER moves supervision to an ATTACHED client and posts SUPERVISION_GAINED to it with the caller's number; to
the caller itself it changes nothing; to a DETACHED client it is refused. A body without the fields of its command, or with
a code or client number that names none, is refused with BAD_ARGUMENT. -/
def Obligations.PingAttentionAndHandOver : Prop :=
  ((∀ (s : State) (c : Client) (tag : Byte) (body : List Byte), Sent s c .ping tag body →
    Answers (.ping c) s s c tag (if body = [] then .ok else .badArgument) []) ∧
  (∀ (s : State) (c : Client) (tag : Byte) (enabled : Bool),
    Sent s c .setAttention tag [if enabled then 0x01 else 0x00] →
      Answers (.setAttention c) s
        ({ s with clients := s.clients.set c { s.client c with attention := enabled } } : State).settleAttention
        c tag .ok [if enabled then 0x01 else 0x00]) ∧
  (∀ (s : State) (c : Client) (tag : Byte) (body : List Byte), Sent s c .setAttention tag body →
    (body.length ≠ 1 ∨ ∃ b, body = [b] ∧ 1 < b.toNat) → Answers (.setAttention c) s s c tag .badArgument [])) ∧
  (∀ (s : State) (c : Client) (tag : Byte) (body : List Byte), s.supervisor = c → Sent s c .handOver tag body →
    (∀ n : Client, body ≠ [byteOf n.val]) → Answers (.handOver c) s s c tag .badArgument []) ∧
  (∀ (s : State) (c n : Client) (tag : Byte), Sent s c .handOver tag [byteOf n.val] → s.supervisor = c →
    ((s.client n).attached = true → n ≠ c →
      Answers (.handOver c) s
        ({ s with supervisor := n, gained := s.gained.set n (some c) } : State).settleAttention
        c tag .ok [byteOf n.val]) ∧
    ((s.client n).attached = true → n = c → Answers (.handOver c) s s c tag .ok [byteOf n.val]) ∧
    ((s.client n).attached = false → Answers (.handOver c) s s c tag .refused []))

/-! ## Leases -/

/-- R31, R32, R187, R188. The body of an ACQUIRE reads back: every request whose operands agree is decoded from its layout
(Table 10-7) to itself, with every option, kind, configuration and count, in whatever order the host lists the lines,
whatever it sends in the bits that are not examined, and with a wait limit sent with NO_WAIT dropped. Every other body is
refused: with BAD_ARGUMENT where it does not divide into its fields, or R31 refuses them; else with BAD_LINES by the line
numbers; else with MODE by a line that does not allow its mode. -/
def Obligations.AcquireBodyReadsBack : Prop :=
  (∀ (r : AcquireRequest) (order : List Line) (spare : Nat) (low : Line → Fin 4) (unused : Option Nat), r.well = true →
    order.Perm r.lines → spare < 32 → (unused ≠ none → r.mayWait = false) →
      acquireRequest (r.body order spare low unused) = .ok r) ∧
  (∀ (s : State) (c : Client) (tag : Byte) (body : List Byte), Sent s c .acquire tag body →
    ((∀ (f : AcquireFields) (spare : Nat), f.Fits → spare < 32 → body ≠ f.bytes spare) →
      Answers (.acquire c) s s c tag .badArgument []) ∧
    ∀ (f : AcquireFields) (spare : Nat), f.Fits → spare < 32 → body = f.bytes spare →
      (f.ArgumentRefused → Answers (.acquire c) s s c tag .badArgument []) ∧
      (¬f.ArgumentRefused → LinesRefused 8 f.lines → Answers (.acquire c) s s c tag .badLines []) ∧
      (¬f.ArgumentRefused → ¬LinesRefused 8 f.lines → f.ModeRefused → Answers (.acquire c) s s c tag .mode []) ∧
      (¬f.ArgumentRefused → ¬LinesRefused 8 f.lines → ¬f.ModeRefused →
        ∃ r : AcquireRequest, r.well = true ∧ acquireRequest body = .ok r))

/-- R34, R35, R71. An ACQUIRE that the arbiter finds grantable takes the lowest FREE slot and is granted at once, whichever
its wait choice; the response gives the handle and the remaining term. -/
def Obligations.GrantableAcquireIsGranted : Prop :=
  ∀ (s : State) (c : Client) (tag : Byte) (body : List Byte) (r : AcquireRequest) (i : Slot),
    Sent s c .acquire tag body → acquireRequest body = .ok r → (s.ownedSlots c).length < 8 →
    (s.entry i).body = .free → (∀ j : Slot, j < i → (s.entry j).body ≠ .free) →
    s.grantable s.waitList ⟨r.kind, r.lines, (pulseLines r.configs).length⟩ = true →
      Answers (.acquire c) s
        (s.grantLease i ⟨c, r.kind, r.lines, r.term⟩ r.configs r.pulse r.due).settleAttention
        c tag .ok (handleByte (s.entry i).generation i :: bytes16 r.term)

/-- R33 to R35, R61, R62, R64. A MAY_WAIT ACQUIRE that is not grantable waits in the lowest FREE slot, at the tail of the wait
list, with an arrival number above all others there; the response is QUEUED with the handle and the position. An ACQUIRE
makes no entry when the caller owns 8, when no slot is FREE, or, with NO_WAIT, when a grant condition fails; the first that
fails gives the status. -/
def Obligations.BlockedAcquireWaitsOrIsRefused : Prop :=
  (∀ (s : State) (c : Client) (tag : Byte) (body : List Byte) (r : AcquireRequest) (i : Slot),
    Sent s c .acquire tag body → acquireRequest body = .ok r → (s.ownedSlots c).length < 8 →
    (s.entry i).body = .free → (∀ j : Slot, j < i → (s.entry j).body ≠ .free) → r.mayWait = true →
    s.grantable s.waitList ⟨r.kind, r.lines, (pulseLines r.configs).length⟩ = false →
      ∃ arrival, (∀ j ∈ s.waitList, (s.entry j).body.arrival < arrival) ∧
        Answers (.acquire c) s
          ({ s with
            entries := s.entries.set i ⟨(s.entry i).generation, .waiting ⟨c, r.kind, r.lines, r.term⟩
              ⟨r.configs, r.pulse, r.due, r.waitLimit.map (fun n => ⟨n, n⟩), arrival⟩⟩
            waitList := s.waitList ++ [i] } : State).settleAttention
          c tag .queued [handleByte (s.entry i).generation i, byteOf (s.waitList.length + 1)]) ∧
  (∀ (s : State) (c : Client) (tag : Byte) (body : List Byte) (r : AcquireRequest),
    Sent s c .acquire tag body → acquireRequest body = .ok r →
      (8 ≤ (s.ownedSlots c).length →
        Answers (.acquire c) s s c tag .quota [byteOf (s.ownedSlots c).length]) ∧
      ((s.ownedSlots c).length < 8 → (∀ i : Slot, (s.entry i).body ≠ .free) →
        Answers (.acquire c) s s c tag .tableFull []) ∧
      ((s.ownedSlots c).length < 8 → (∃ i : Slot, (s.entry i).body = .free) → r.mayWait = false →
        s.grantable s.waitList ⟨r.kind, r.lines, (pulseLines r.configs).length⟩ = false →
        ∀ fenced busy : Prop, (fenced ↔ ∃ l ∈ r.lines, inSet l s.fences = true) →
          (busy ↔ ∃ (j : Slot) (cl : Claim), ((s.entry j).body.heldClaim = some cl ∨
              (j ∈ s.waitList ∧ (s.entry j).body.isWaiting = true ∧ (s.entry j).body.claim = some cl)) ∧
            (cl.kind = .exclusive ∨ r.kind = .exclusive) ∧ ∃ l ∈ r.lines, l ∈ cl.lines) →
          (fenced → Answers (.acquire c) s s c tag .fenced []) ∧
          (¬fenced → busy → Answers (.acquire c) s s c tag .busy []) ∧
          (¬fenced → ¬busy → Answers (.acquire c) s s c tag .noGenerator [])))

/-- R51 to R55. A candidate is grantable exactly when no line of it is fenced, no HELD lease and no older waiting entry
conflicts with it, and, if it has PULSE lines, there are as many FREE generators and no older waiting entry has PULSE lines. -/
def Obligations.GrantConditionsAreFour : Prop :=
  ∀ (s : State) (older : List Slot) (k : Candidate),
    s.grantable older k = true ↔
      (∀ l ∈ k.lines, inSet l s.fences = false) ∧
      (∀ (i : Slot) (cl : Claim) (h : Held), (s.entry i).body = .held cl h →
        ¬((cl.kind = .exclusive ∨ k.kind = .exclusive) ∧ ∃ l ∈ k.lines, l ∈ cl.lines)) ∧
      (∀ i ∈ older, ∀ (cl : Claim) (w : Waiting), (s.entry i).body = .waiting cl w →
        ¬((cl.kind = .exclusive ∨ k.kind = .exclusive) ∧ ∃ l ∈ k.lines, l ∈ cl.lines)) ∧
      (1 ≤ k.pulses →
        k.pulses ≤ (allGenerators.filter fun g => s.generators[g] = .free).length ∧
        ∀ i ∈ older, ∀ (cl : Claim) (w : Waiting), (s.entry i).body = .waiting cl w → pulseLines w.configs = [])

/-- R12, R68 to R71, R120. A grant makes the entry HELD with its remaining term at its term and its due mark kept; gives its
PULSE lines, in ascending order, the lowest FREE generators, started together at count 0; configures its lines as one
change with its mode-change reports; posts GRANTED; and changes nothing else. -/
def Obligations.GrantMakesHolder : Prop :=
  ∀ (s t : State) (i : Slot) (cl : Claim) (configs : LineConfigs) (pulse : Option PulseSetting) (due : Option Nat),
    (pulse = none ↔ pulseLines configs = []) → (∀ p, pulse = some p → p.highs.length = (pulseLines configs).length) →
    (pulseLines configs).length ≤ s.freeGenerators.length → t = s.grantLease i cl configs pulse due →
      (∀ j : Slot, t.entry j =
        if j = i then ⟨(s.entry i).generation,
          .held cl ⟨configs,
            pulse.map (fun p => ⟨p, s.freeGenerators.take (pulseLines configs).length, none⟩), cl.term, due, none, .none,
            none⟩⟩
        else s.entry j) ∧
      (∀ l : Line, t.effective[l] = (configFor configs l).getD s.effective[l]) ∧
      t.inFlight = s.inFlight.map (fun f => { f with disturbed := f.disturbedBetween s.effective t.effective }) ∧
      (∀ (n : Nat) (g : GenIx) (l : Line) (high : Nat) (p : PulseSetting), pulse = some p →
        s.freeGenerators[n]? = some g → (pulseLines configs)[n]? = some l → p.highs[n]? = some high →
          t.generators[g] = .running ⟨i, l, p.divider, p.period, high, 0, 0, false⟩) ∧
      (∀ g : GenIx, g ∉ s.freeGenerators.take (pulseLines configs).length → t.generators[g] = s.generators[g]) ∧
      (∀ j : Slot, t.noticesOf j = if j = i then { s.noticesOf i with granted := true } else s.noticesOf j) ∧
      t = { s with
        entries := t.entries, effective := t.effective, inFlight := t.inFlight, generators := t.generators
        notices := t.notices }

/-- R66, R68 to R70. A grant scan passes once over the wait list from oldest to newest. An entry at its turn is granted, by
leaving the list and the grant, exactly when it is grantable in the state that the turns before it have left, with the older
entries that still wait; else it joins those. A scan leaves every other entry as it was; a line changes only to a
configuration that a granted entry gives it, a generator only from FREE to RUNNING for a granted entry at count 0, and the
request in flight only by a DISTURBED mark for a line of a granted entry, which a changed mode sets; a scan that finds no
entry grantable changes nothing; and clients, fences, the idle plan and the queue of conversions are not touched. -/
def Obligations.GrantScanOnlyGrants : Prop :=
  (∀ s t : State, t = s.grantScan →
    (∀ i : Slot, (t.entry i = s.entry i ∧ t.noticesOf i = s.noticesOf i) ∨
      (i ∈ s.waitList ∧ i ∉ t.waitList ∧ ∃ cl w h, (s.entry i).body = .waiting cl w ∧
        t.entry i = ⟨(s.entry i).generation, .held cl h⟩ ∧ h.configs = w.configs ∧ h.remaining = cl.term ∧
        h.due = w.due ∧ h.pulse.map PulseGroup.setting = w.pulse ∧ h.watch = none ∧ h.conv = .none ∧ h.result = none ∧
        t.noticesOf i = { s.noticesOf i with granted := true })) ∧
    t.waitList.Sublist s.waitList ∧
    (∀ i ∈ s.waitList, i ∉ t.waitList → ∃ cl h, (t.entry i).body = .held cl h) ∧
    t = { s with
      entries := t.entries, notices := t.notices, waitList := t.waitList, effective := t.effective
      inFlight := t.inFlight, generators := t.generators } ∧
    (∀ l : Line, t.effective[l] = s.effective[l] ∨ ∃ i ∈ s.waitList, i ∉ t.waitList ∧
      ∃ cl w, (s.entry i).body = .waiting cl w ∧ configFor w.configs l = some t.effective[l]) ∧
    (∀ g : GenIx, t.generators[g] = s.generators[g] ∨ (s.generators[g] = .free ∧ ∃ r, t.generators[g] = .running r ∧
      r.slot ∈ s.waitList ∧ r.slot ∉ t.waitList ∧ r.count = 0 ∧ r.prescale = 0 ∧ r.counting = false)) ∧
    (s.inFlight = none → t.inFlight = none) ∧
    (∀ f, s.inFlight = some f → ∃ d, t.inFlight = some { f with disturbed := d } ∧ (f.disturbed = true → d = true) ∧
      (s.effective[f.request.line].mode ≠ t.effective[f.request.line].mode → d = true) ∧
      (d = f.disturbed ∨ ∃ i ∈ s.waitList, i ∉ t.waitList ∧
        ∃ cl w, (s.entry i).body = .waiting cl w ∧ configFor w.configs f.request.line ≠ none))) ∧
  (∀ (s u : State) (older newer still : List Slot) (i : Slot) (cl : Claim) (w : Waiting), WaitListLaw s →
    s.waitList = older ++ i :: newer → (s.entry i).body = .waiting cl w → u = scanFrom [] older s →
    still = older.filter (fun j => (u.entry j).body.isWaiting) →
      (u.grantable still ⟨cl.kind, cl.lines, (pulseLines w.configs).length⟩ = true →
        s.grantScan = scanFrom still newer ((u.leaveWaitList i).grantLease i cl w.configs w.pulse w.due)) ∧
      (u.grantable still ⟨cl.kind, cl.lines, (pulseLines w.configs).length⟩ = false →
        s.grantScan = scanFrom (still ++ [i]) newer u)) ∧
  (∀ s : State, SettledLaw s → (∀ i ∈ s.waitList, (s.entry i).body.isWaiting = true) → s.grantScan = s)

/-- R44 to R47, R126, R141. How an entry ends. A HELD lease that is freed or becomes a tombstone returns its exclusive lines
to the idle plan, stops its generators, and withdraws its queued conversion or marks its running one discard; a waiting
entry leaves the list; a tombstone gives up nothing. A freed entry keeps only its generation, advanced, and loses its
notices; a tombstone keeps its claim, its result and its notices, and takes ENDED. -/
def Obligations.EntriesEnd : Prop :=
  (∀ (s t : State) (i : Slot) (cl : Claim) (h : Held), (s.entry i).body = .held cl h →
    (t = s.retire i ∨ ∃ r, t = s.entomb i r) →
      (∀ l : Line, t.effective[l] = if cl.kind = .exclusive ∧ l ∈ cl.lines then s.idlePlan[l] else s.effective[l]) ∧
      (∀ g : GenIx, t.generators[g] =
        match s.generators[g] with | .free => .free | .running r => if r.slot = i then .free else .running r) ∧
      t.convQueue = (if h.conv = .queued then s.convQueue.filter (fun r => r.slot ≠ i) else s.convQueue) ∧
      t.inFlight = s.inFlight.map (fun f => { f with
        disturbed := f.disturbedBetween s.effective t.effective
        discard := f.discard || (decide (h.conv = .inFlight) && decide (f.request.slot = i)) }) ∧
      t = { s with
        entries := t.entries, notices := t.notices, effective := t.effective, generators := t.generators
        convQueue := t.convQueue, inFlight := t.inFlight }) ∧
  (∀ (s t : State) (i : Slot), (s.entry i).body.heldClaim = none → (t = s.retire i ∨ ∃ r, t = s.entomb i r) →
      t = { s with
        entries := t.entries, notices := t.notices
        waitList := if (s.entry i).body.isWaiting then s.waitList.filter (fun j => j ≠ i) else s.waitList }) ∧
  (∀ (s : State) (i : Slot), (s.entry i).body ≠ .free →
    (s.retire i).entry i = ⟨(s.entry i).generation + 1, .free⟩ ∧ (s.retire i).noticesOf i = PendingSet.empty) ∧
  (∀ (s : State) (i : Slot), (s.entry i).body = .free → s.retire i = s) ∧
  (∀ (s : State) (i : Slot) (cl : Claim) (r : EndReason),
    (∀ h, (s.entry i).body = .held cl h →
      (s.entomb i r).entry i = ⟨(s.entry i).generation, .ended cl ⟨r, h.result⟩⟩) ∧
    (∀ w, (s.entry i).body = .waiting cl w →
      (s.entomb i r).entry i = ⟨(s.entry i).generation, .ended cl ⟨r, none⟩⟩) ∧
    (s.entomb i r).noticesOf i = { s.noticesOf i with ended := some r }) ∧
  (∀ (s : State) (i j : Slot) (r : EndReason), j ≠ i →
    (s.retire i).entry j = s.entry j ∧ (s.entomb i r).entry j = s.entry j ∧
      (s.retire i).noticesOf j = s.noticesOf j ∧ (s.entomb i r).noticesOf j = s.noticesOf j)

/-- R36 to R39, R67. RELEASE of a HELD lease and CANCEL of a waiting entry free it and run a grant scan; ACKNOWLEDGE of a
tombstone frees it without one and answers its end reason. REVOKE, from the supervisor and on any owner's entry, makes a HELD
lease or a waiting entry a REVOKED tombstone and runs a grant scan; the response gives the state before and the owner; a
tombstone refuses it. -/
def Obligations.CommandsEndEntries : Prop :=
  (∀ (s : State) (c : Client) (tag h : Byte) (i : Slot), Names s c h i →
    (Sent s c .release tag [h] → (∃ cl hd, (s.entry i).body = .held cl hd) →
      Answers (.release c) s ((s.retire i).grantScan).settleAttention c tag .ok []) ∧
    (Sent s c .cancel tag [h] → (∃ cl w, (s.entry i).body = .waiting cl w) →
      Answers (.cancel c) s ((s.retire i).grantScan).settleAttention c tag .ok []) ∧
    (∀ cl t, Sent s c .acknowledge tag [h] → (s.entry i).body = .ended cl t →
      Answers (.acknowledge c) s (s.retire i).settleAttention c tag .ok
        [match t.reason with | .lapsed => 0x01 | .revoked => 0x02 | .waitExpired => 0x03])) ∧
  (∀ (s : State) (c : Client) (tag : Byte) (i : Slot), s.supervisor = c →
    Sent s c .revoke tag [handleByte (s.entry i).generation i] →
      (∀ cl h, (s.entry i).body = .held cl h →
        Answers (.revoke c) s ((s.entomb i .revoked).grantScan).settleAttention c tag .ok [0x02, byteOf cl.owner.val]) ∧
      (∀ cl w, (s.entry i).body = .waiting cl w →
        Answers (.revoke c) s ((s.entomb i .revoked).grantScan).settleAttention c tag .ok [0x01, byteOf cl.owner.val]) ∧
      (∀ cl t, (s.entry i).body = .ended cl t →
        Answers (.revoke c) s s c tag .wrongState [0x03, cl.kind.code]) ∧
      ((s.entry i).body = .free → Answers (.revoke c) s s c tag .staleHandle []))

/-- R84 to R86. RENEW sets the remaining term to the term, or to a new term, with which the due mark is replaced or removed;
the response gives remaining term, term, due mark and tick rate; nothing else of the lease changes. A body of another form, a
new term of 0, and a new due mark that is 0 or not below the new term are refused with BAD_ARGUMENT; no other body is. -/
def Obligations.RenewReloadsTerm : Prop :=
  (∀ (s : State) (c : Client) (tag : Byte) (body : List Byte), Sent s c .renew tag body →
    (body.length ∉ [1, 3, 5] → Answers (.renew c) s s c tag .badArgument []) ∧
    (∀ h th tl, body = [h, th, tl] → th.toNat * 256 + tl.toNat = 0 → Answers (.renew c) s s c tag .badArgument []) ∧
    (∀ h th tl dh dl, body = [h, th, tl, dh, dl] →
      (dh.toNat * 256 + dl.toNat = 0 ∨ th.toNat * 256 + tl.toNat ≤ dh.toNat * 256 + dl.toNat) →
        Answers (.renew c) s s c tag .badArgument [])) ∧
  (renewTerm [] = .ok none ∧
  (∀ th tl : Byte, th.toNat * 256 + tl.toNat ≠ 0 → renewTerm [th, tl] = .ok (some (th.toNat * 256 + tl.toNat, none))) ∧
  (∀ th tl dh dl : Byte, dh.toNat * 256 + dl.toNat ≠ 0 → dh.toNat * 256 + dl.toNat < th.toNat * 256 + tl.toNat →
    renewTerm [th, tl, dh, dl] = .ok (some (th.toNat * 256 + tl.toNat, some (dh.toNat * 256 + dl.toNat))))) ∧
  ∀ (s : State) (c : Client) (tag h : Byte) (i : Slot) (cl : Claim) (hd : Held), Names s c h i →
    (s.entry i).body = .held cl hd →
      (Sent s c .renew tag [h] →
        Answers (.renew c) s
          { s with entries := s.entries.set i ⟨(s.entry i).generation, .held cl { hd with remaining := cl.term }⟩ }
          c tag .ok
          (bytes16 cl.term ++ bytes16 cl.term ++ (match hd.due with | none => [0, 0] | some d => bytes16 d)
            ++ [byteOf s.tickRate.val])) ∧
      (∀ th tl : Byte, th.toNat * 256 + tl.toNat ≠ 0 → Sent s c .renew tag [h, th, tl] →
        Answers (.renew c) s
          { s with entries := s.entries.set i ⟨(s.entry i).generation,
              .held { cl with term := th.toNat * 256 + tl.toNat }
                { hd with remaining := th.toNat * 256 + tl.toNat, due := none }⟩ }
          c tag .ok [th, tl, th, tl, 0, 0, byteOf s.tickRate.val]) ∧
      (∀ th tl dh dl : Byte, dh.toNat * 256 + dl.toNat ≠ 0 →
        dh.toNat * 256 + dl.toNat < th.toNat * 256 + tl.toNat → Sent s c .renew tag [h, th, tl, dh, dl] →
          Answers (.renew c) s
            { s with entries := s.entries.set i ⟨(s.entry i).generation,
                .held { cl with term := th.toNat * 256 + tl.toNat }
                  { hd with remaining := th.toNat * 256 + tl.toNat, due := some (dh.toNat * 256 + dl.toNat) }⟩ }
            c tag .ok [th, tl, th, tl, dh, dl, byteOf s.tickRate.val])

/-- R42, R43, R100, R113, R114, R190. The commands that report change nothing: DESCRIBE, for the owner or the supervisor, a
part of the entry or that it is absent; LIST the caller's handles or all 32 slots; READ LEVELS each line's last sample and
watch; SURVEY each line of a bank with its mode, effective pull, sample, fence and holder. That the report of an unwatched
line has 0 in its watch and stable-level bits is the model's inference (log 21). A LIST that is not one scope code, and a
SURVEY of the supervisor that is not one bank code, are refused with BAD_ARGUMENT; that a malformed LIST is so refused
whoever sends it is the model's inference (log 12). -/
def Obligations.ReportsChangeNothing : Prop :=
  (∀ (s : State) (c : Client) (tag : Byte) (body : List Byte),
    (Sent s c .list tag body → (body.length ≠ 1 ∨ ∃ b, body = [b] ∧ 1 < b.toNat) →
      Answers (.list c) s s c tag .badArgument []) ∧
    (s.supervisor = c → Sent s c .survey tag body → (body.length ≠ 1 ∨ ∃ b, body = [b] ∧ 2 < b.toNat) →
      Answers (.survey c) s s c tag .badArgument [])) ∧
  (∀ (s : State) (c : Client) (tag : Byte) (i : Slot) (part : Part) (cl : Claim), (s.entry i).body.claim = some cl →
    cl.owner = c ∨ s.supervisor = c → Sent s c .describe tag [handleByte (s.entry i).generation i, part.code] →
      Answers (.describe c) s s c tag .ok
        (match s.describePart i part with
         | none => [part.code, 0x00]
         | some content => [part.code, 0x01] ++ content)) ∧
  (∀ (s : State) (c : Client) (tag : Byte), Sent s c .list tag [0x00] →
    Answers (.list c) s s c tag .ok
      (byteOf (s.ownedSlots c).length :: (s.ownedSlots c).flatMap fun i =>
        [handleByte (s.entry i).generation i, byteOf (s.entry i).body.stateCode])) ∧
  (∀ (s : State) (c : Client) (tag : Byte), s.supervisor = c → Sent s c .list tag [0x01] →
    Answers (.list c) s s c tag .ok (allSlots.map fun i =>
      byteOf ((s.entry i).body.stateCode * 64 + (s.entry i).body.ownerNumber * 8 + (s.entry i).generation.val))) ∧
  (∀ (s : State) (c : Client) (tag h : Byte) (i : Slot) (cl : Claim) (hd : Held), Names s c h i →
    (s.entry i).body = .held cl hd → Sent s c .readLevels tag [h] →
      Answers (.readLevels c) s s c tag .ok
        (byteOf cl.lines.length :: cl.lines.flatMap fun l =>
          [byteOf l.val, match hd.watch.bind (fun w => w.lines.find? fun x => x.line = l) with
            | none => byteOf s.lastSample[l].code
            | some x => byteOf (s.lastSample[l].code + 2 + 4 * x.stable.code)])) ∧
  (∀ (s : State) (c : Client) (tag : Byte) (bank : Nat), bank < 3 → s.supervisor = c →
    Sent s c .survey tag [byteOf bank] →
      Answers (.survey c) s s c tag .ok
        (byteOf bank :: (allLines.filter fun l => l.val / 8 = bank).flatMap fun l =>
          [byteOf (s.effective[l].mode.code * 32 + s.effective[l].effectivePull.code * 8 + s.lastSample[l].code * 4
              + if inSet l s.fences then 1 else 0),
            match s.exclusiveSlot l with
            | some i => byteOf (64 + (s.entry i).body.ownerNumber)
            | none => if s.sharedCount l = 0 then 0x00 else byteOf (128 + s.sharedCount l)]))

/-- R42, R187, R190. The parts of DESCRIBE, byte by byte, of each kind of entry: RECORD, 17 bytes; LINES, with configuration and
generator for an EXCLUSIVE waiting entry or lease; PULSE, with a pending update; WATCH; RESULT; and where a part is absent. -/
def Obligations.DescribeHasItsLayout : Prop :=
  (∀ (s : State) (i : Slot) (cl : Claim) (w : Waiting), (s.entry i).body = .waiting cl w →
    s.describePart i .record = some ([0x01, byteOf cl.owner.val, cl.kind.code] ++ bytes16 cl.term ++ [0, 0]
      ++ bytes16 (w.due.getD 0)
      ++ (match w.wait with | none => [0, 0, 0, 0] | some wl => bytes16 wl.limit ++ bytes16 wl.remaining)
      ++ [byteOf (s.waitList.idxOf i + 1), 0, 0, if w.pulse.isSome then 0x04 else 0x00]) ∧
    s.describePart i .lines = some (match cl.kind with
      | .exclusive => byteOf w.configs.length :: w.configs.flatMap fun p => [byteOf p.1.val, p.2.byte, 0xFF]
      | .shared => byteOf cl.lines.length :: cl.lines.map fun l => byteOf l.val) ∧
    s.describePart i .pulse = w.pulse.map (fun p =>
      [byteOf p.divider] ++ bytes16 p.period ++ [byteOf p.highs.length] ++ p.highs.flatMap bytes16 ++ [0x00]) ∧
    s.describePart i .watch = none) ∧
  (∀ (s : State) (i : Slot) (cl : Claim) (h : Held), (s.entry i).body = .held cl h →
    s.describePart i .record = some ([0x02, byteOf cl.owner.val, cl.kind.code] ++ bytes16 cl.term ++ bytes16 h.remaining
      ++ bytes16 (h.due.getD 0) ++ [0, 0, 0, 0, 0, 0]
      ++ [match h.conv with | .none => 0x00 | .queued => 0x01 | .inFlight => 0x02,
          byteOf ((if h.watch.isSome then 1 else 0) + (if h.result.isSome then 2 else 0) + (if h.pulse.isSome then 4 else 0)
            + match h.pulse with | none => 0 | some g => if g.update.isSome then 8 else 0)]) ∧
    s.describePart i .pulse = h.pulse.map (fun g =>
      [byteOf g.setting.divider] ++ bytes16 g.setting.period ++ [byteOf g.setting.highs.length]
        ++ g.setting.highs.flatMap bytes16
        ++ match g.update with
          | none => [0x00]
          | some u =>
            [byteOf (128 + (if u.dividerGiven then 1 else 0) + (if u.periodGiven then 2 else 0) + if u.highsGiven then 4 else 0),
              byteOf u.setting.divider] ++ bytes16 u.setting.period ++ u.setting.highs.flatMap bytes16) ∧
    s.describePart i .watch = h.watch.map (fun w =>
      [byteOf w.filter, byteOf w.lines.length] ++ w.lines.flatMap fun x =>
        [byteOf x.line.val, match x.sense with | .rising => 0x01 | .falling => 0x02 | .both => 0x03,
          match x.stable with | .low => 0x00 | .high => 0x01, byteOf x.run]) ∧
    (cl.kind = .shared → s.describePart i .lines = some (byteOf cl.lines.length :: cl.lines.map fun l => byteOf l.val)) ∧
    (cl.kind = .exclusive →
      s.describePart i .lines = some (byteOf h.configs.length :: h.configs.flatMap fun p =>
        [byteOf p.1.val, p.2.byte,
          match h.pulse.bind (fun g => ((pulseLines h.configs).zip g.generators).lookup p.1) with
          | none => 0xFF
          | some g => byteOf g.val]))) ∧
  (∀ (s : State) (i : Slot) (cl : Claim) (t : Tombstone), (s.entry i).body = .ended cl t →
    s.describePart i .record = some ([0x03, byteOf cl.owner.val, cl.kind.code] ++ bytes16 cl.term
      ++ [0, 0, 0, 0, 0, 0, 0, 0, 0, t.reason.code, 0, if t.result.isSome then 0x02 else 0x00]) ∧
    s.describePart i .lines = some (byteOf cl.lines.length :: cl.lines.map fun l => byteOf l.val) ∧
    s.describePart i .pulse = none ∧ s.describePart i .watch = none) ∧
  (∀ (s : State) (i : Slot), s.describePart i .result =
    (s.entry i).body.result.map fun r =>
      [byteOf r.line.val,
        byteOf ((match r.status with | .ok => 0 | .disturbed => 1 | .modeLost => 2) + if r.overrun then 128 else 0)]
        ++ bytes16 (r.value.getD 0)) ∧
  (∀ (s : State) (i : Slot) (cl : Claim), (s.entry i).body.claim = some cl →
    ∃ bytes, s.describePart i .record = some bytes ∧ bytes.length = 17)

/-- R13, R41, R98. RECONFIGURE replaces the whole configuration of the lines that it names, and WRITE LEVELS the level alone,
in the lease's record and at the pads as one change with its mode-change reports; the other lines keep theirs. A handle with 1
to 8 pairs of different lines and values that they allow gives those pairs; another body is refused in the order BAD_ARGUMENT
(form, codes), BAD_LINES (count, line number, line twice), MODE. -/
def Obligations.HolderChangesItsLines : Prop :=
  (∀ (s : State) (c : Client) (tag : Byte) (body : List Byte),
    (Sent s c .reconfigure tag body →
      (body.length % 2 = 0 → Answers (.reconfigure c) s s c tag .badArgument []) ∧
      ∀ h ps, body = h :: pairBytes ps →
        ((∃ p ∈ ps, ConfigRefused p.2) → Answers (.reconfigure c) s s c tag .badArgument []) ∧
        ((∀ p ∈ ps, ¬ConfigRefused p.2) → LinesRefused 8 (ps.map Prod.fst) →
          Answers (.reconfigure c) s s c tag .badLines []) ∧
        ((∀ p ∈ ps, ¬ConfigRefused p.2) → ¬LinesRefused 8 (ps.map Prod.fst) → ModesRefused ps →
          Answers (.reconfigure c) s s c tag .mode [])) ∧
    (Sent s c .writeLevels tag body →
      (body.length % 2 = 0 → Answers (.writeLevels c) s s c tag .badArgument []) ∧
      ∀ h ps, body = h :: pairBytes ps →
        ((∃ p ∈ ps, 1 < p.2.toNat) → Answers (.writeLevels c) s s c tag .badArgument []) ∧
        ((∀ p ∈ ps, p.2.toNat ≤ 1) → LinesRefused 8 (ps.map Prod.fst) →
          Answers (.writeLevels c) s s c tag .badLines []))) ∧
  ((∀ (ps : LineConfigs) (low : Line → Fin 4), LinesTaken 8 (ps.map Prod.fst) → ModesTaken ps →
    reconfigurePairs (configPairBytes low ps) = .ok ps) ∧
  (∀ ps : List (Line × Level), LinesTaken 8 (ps.map Prod.fst) →
    levelPairs (pairBytes (ps.map fun p => (byteOf p.1.val, match p.2 with | .low => 0x00 | .high => 0x01))) = .ok ps)) ∧
  (∀ (s : State) (c : Client) (tag h : Byte) (rest : List Byte) (i : Slot) (cl : Claim) (hd : Held) (ps : LineConfigs),
    Names s c h i → (s.entry i).body = .held cl hd → cl.kind = .exclusive → Sent s c .reconfigure tag (h :: rest) →
    reconfigurePairs rest = .ok ps → (∀ p ∈ ps, p.1 ∈ cl.lines) →
    (∀ p ∈ ps, ∀ k, configFor hd.configs p.1 = some k → k.mode ≠ .pulse) →
      ∃ u : State, Answers (.reconfigure c) s u c tag .ok [] ∧
        u.entries = s.entries.set i ⟨(s.entry i).generation, .held cl { hd with
          configs := hd.configs.map fun p => (p.1, (configFor ps p.1).getD p.2) }⟩ ∧
        (∀ l : Line, u.effective[l] = (configFor ps l).getD s.effective[l]) ∧
        u.inFlight = s.inFlight.map (fun f => { f with disturbed := f.disturbedBetween s.effective u.effective }) ∧
        u = { s with entries := u.entries, effective := u.effective, inFlight := u.inFlight }) ∧
  (∀ (s : State) (c : Client) (tag h : Byte) (rest : List Byte) (i : Slot) (cl : Claim) (hd : Held)
      (ps : List (Line × Level)),
    Names s c h i → (s.entry i).body = .held cl hd → cl.kind = .exclusive → Sent s c .writeLevels tag (h :: rest) →
    levelPairs rest = .ok ps →
    (∀ p ∈ ps, p.1 ∈ cl.lines ∧ ∃ k, configFor hd.configs p.1 = some k ∧ (k.mode = .pushPull ∨ k.mode = .openDrain)) →
      ∃ u : State, Answers (.writeLevels c) s u c tag .ok [] ∧
        u.entries = s.entries.set i ⟨(s.entry i).generation, .held cl { hd with
          configs := hd.configs.map fun p =>
            (p.1, match ps.lookup p.1 with
              | none => p.2
              | some v => { (configFor hd.configs p.1).getD p.2 with level := v }) }⟩ ∧
        (∀ l : Line, u.effective[l] =
          match ps.lookup l, configFor hd.configs l with
          | some v, some k => { k with level := v }
          | _, _ => s.effective[l]) ∧
        (RecordLaw s → HolderLaw s → SourceLaw s → u.inFlight = s.inFlight) ∧
        u = { s with entries := u.entries, effective := u.effective, inFlight := u.inFlight })

/-- R104, R105. SET WATCH arms a new watch on a HELD lease of either kind, each line at its last sample with run count 0, in
ascending order, and answers the levels; CLEAR WATCH removes the watch and answers whether there was one; a pending EDGE
stays. A handle, a filter length from 1 to 15 and 1 to 8 pairs of different lines with a sense give those operands; another
body of SET WATCH is refused with BAD_ARGUMENT (form, filter length, codes), else with BAD_LINES. -/
def Obligations.WatchIsSetAndCleared : Prop :=
  (∀ (s : State) (c : Client) (tag : Byte) (body : List Byte), Sent s c .setWatch tag body →
    ((body = [] ∨ body.length % 2 = 1) → Answers (.setWatch c) s s c tag .badArgument []) ∧
    ∀ h filter ps, body = h :: filter :: pairBytes ps →
      ((filter.toNat = 0 ∨ 15 < filter.toNat ∨ ∃ p ∈ ps, p.2.toNat = 0 ∨ 3 < p.2.toNat) →
        Answers (.setWatch c) s s c tag .badArgument []) ∧
      (filter.toNat ≠ 0 → filter.toNat ≤ 15 → (∀ p ∈ ps, p.2.toNat ≠ 0 ∧ p.2.toNat ≤ 3) →
        LinesRefused 8 (ps.map Prod.fst) → Answers (.setWatch c) s s c tag .badLines [])) ∧
  (∀ (filter : Nat) (ps : List (Line × Sense)), 1 ≤ filter → filter ≤ 15 → LinesTaken 8 (ps.map Prod.fst) →
    watchRequest (byteOf filter :: pairBytes (ps.map fun p =>
      (byteOf p.1.val, match p.2 with | .rising => 0x01 | .falling => 0x02 | .both => 0x03))) = .ok (filter, ps)) ∧
  ∀ (s : State) (c : Client) (tag h : Byte) (i : Slot) (cl : Claim) (hd : Held), Names s c h i →
    (s.entry i).body = .held cl hd →
      (∀ (rest : List Byte) (filter : Nat) (ps : List (Line × Sense)) (lines : List Line),
        Sent s c .setWatch tag (h :: rest) → watchRequest rest = .ok (filter, ps) → (∀ p ∈ ps, p.1 ∈ cl.lines) →
        lines = allLines.filter (fun l => (ps.lookup l).isSome) →
          ∃ w : Watch, w.filter = filter ∧ w.lines.map WatchedLine.line = lines ∧
            (∀ x ∈ w.lines, ps.lookup x.line = some x.sense ∧ x.stable = s.lastSample[x.line] ∧ x.run = 0) ∧
            Answers (.setWatch c) s
              { s with entries := s.entries.set i ⟨(s.entry i).generation, .held cl { hd with watch := some w }⟩ }
              c tag .ok
              (byteOf lines.length :: lines.flatMap fun l =>
                [byteOf l.val, match s.lastSample[l] with | .low => 0x00 | .high => 0x01])) ∧
      (Sent s c .clearWatch tag [h] →
        Answers (.clearWatch c) s
          { s with entries := s.entries.set i ⟨(s.entry i).generation, .held cl { hd with watch := none }⟩ }
          c tag .ok [if hd.watch.isSome then 0x01 else 0x00])

/-- R122, R123. SET PULSE stores a pending update of the whole setting, each field from the command or from the setting in
force; the response says NEW or REPLACED and the pulse-clock counts left before the group's next wrap; no generator and no
setting in force changes. A handle, the given byte and the fields that it names give those fields; that its bits 7 to 3 are
not examined is the model's choice (log 28), and that no high counts at all can be given is its inference (log 13). A body
that does not divide so, or gives no field, a divider that is none of the eight, or a period below 2, is refused with
BAD_ARGUMENT. -/
def Obligations.SetPulseStoresUpdate : Prop :=
  (∀ (s : State) (c : Client) (tag : Byte) (body : List Byte), Sent s c .setPulse tag body →
    ((∀ (h : Byte) (r : PulseRequest) (spare : Nat), r.Fits → spare < 32 → body ≠ h :: r.bytes spare) →
      Answers (.setPulse c) s s c tag .badArgument []) ∧
    ∀ (h : Byte) (r : PulseRequest) (spare : Nat), r.Fits → spare < 32 → body = h :: r.bytes spare → r.Refused →
      Answers (.setPulse c) s s c tag .badArgument []) ∧
  (∀ (r : PulseRequest) (spare : Nat), r.Fits → spare < 32 → ¬r.Refused → pulseRequest (r.bytes spare) = .ok r) ∧
  ∀ (s : State) (c : Client) (tag h : Byte) (rest : List Byte) (i : Slot) (cl : Claim) (hd : Held) (g : PulseGroup)
      (r : PulseRequest) (setting : PulseSetting) (x : GenIx) (run : Running),
    Names s c h i → (s.entry i).body = .held cl hd → cl.kind = .exclusive → hd.pulse = some g →
    Sent s c .setPulse tag (h :: rest) → pulseRequest rest = .ok r →
    setting = ⟨r.divider.getD g.setting.divider, r.period.getD g.setting.period, r.highs.getD g.setting.highs⟩ →
    (∀ hs, r.highs = some hs → hs.length = (pulseLines hd.configs).length) →
    (∀ n ∈ setting.highs, n ≤ setting.period) → s.generators[x] = .running run → run.slot = i →
    (∀ (y : GenIx) (other : Running), s.generators[y] = .running other → other.slot = i → other.count = run.count) →
      Answers (.setPulse c) s
        { s with entries := s.entries.set i ⟨(s.entry i).generation, .held cl { hd with
            pulse := some { g with
              update := some ⟨setting, r.divider.isSome, r.period.isSome, r.highs.isSome⟩ } }⟩ }
        c tag .ok ((if g.update.isSome then 0x01 else 0x00) :: bytes16 (g.setting.period - run.count))

/-! ## Lines, fences and settings -/

/-- R9, R10, R15. SET IDLE PLAN replaces the entries of the lines that it names; a line that no HELD exclusive lease contains
changes at once, with its mode-change report, and one that such a lease contains keeps its effective configuration; the
response gives both sets. 1 to 16 pairs of different lines and configurations that they allow give those pairs; another body
of the supervisor is refused in the order BAD_ARGUMENT (form, count, codes), BAD_LINES, MODE. -/
def Obligations.IdlePlanIsStoredOrApplied : Prop :=
  (∀ (s : State) (c : Client) (tag : Byte) (body : List Byte), s.supervisor = c → Sent s c .setIdlePlan tag body →
    ((body.length % 2 = 1 ∨ body = [] ∨ 32 < body.length) → Answers (.setIdlePlan c) s s c tag .badArgument []) ∧
    ∀ ps, body = pairBytes ps →
      ((∃ p ∈ ps, ConfigRefused p.2) → Answers (.setIdlePlan c) s s c tag .badArgument []) ∧
      (ps ≠ [] → ps.length ≤ 16 → (∀ p ∈ ps, ¬ConfigRefused p.2) → LinesRefused 16 (ps.map Prod.fst) →
        Answers (.setIdlePlan c) s s c tag .badLines []) ∧
      ((∀ p ∈ ps, ¬ConfigRefused p.2) → ¬LinesRefused 16 (ps.map Prod.fst) → ModesRefused ps →
        Answers (.setIdlePlan c) s s c tag .mode [])) ∧
  (∀ (ps : LineConfigs) (low : Line → Fin 4), LinesTaken 16 (ps.map Prod.fst) → ModesTaken ps →
    idlePlanPairs (configPairBytes low ps) = .ok ps) ∧
  ∀ (s : State) (c : Client) (tag : Byte) (body : List Byte) (ps : LineConfigs), s.supervisor = c →
    Sent s c .setIdlePlan tag body → idlePlanPairs body = .ok ps →
      ∃ (u : State) (changed behind : LineSet),
        Answers (.setIdlePlan c) s u c tag .ok (maskBytes changed ++ maskBytes behind) ∧
        (∀ l : Line, inSet l changed = true ↔
          s.exclusiveSlot l = none ∧ ∃ k, configFor ps l = some k ∧ s.effective[l] ≠ k) ∧
        (∀ l : Line, inSet l behind = true ↔ s.exclusiveSlot l ≠ none ∧ configFor ps l ≠ none) ∧
        (∀ l : Line, u.idlePlan[l] = (configFor ps l).getD s.idlePlan[l]) ∧
        (∀ l : Line, u.effective[l] =
          if s.exclusiveSlot l = none then (configFor ps l).getD s.effective[l] else s.effective[l]) ∧
        u.inFlight = s.inFlight.map (fun f => { f with disturbed := f.disturbedBetween s.effective u.effective }) ∧
        u = { s with idlePlan := u.idlePlan, effective := u.effective, inFlight := u.inFlight }

/-- R58, R59. FENCE and UNFENCE from the supervisor take a list of different line numbers up to 23, and refuse an empty one,
a number above 23 or a line named twice with BAD_LINES. FENCE adds the lines to the fence set and runs no scan; UNFENCE
removes them and runs a grant scan; the response gives the lines that changed and the whole set. From another client both
are refused with NOT_SUPERVISOR. -/
def Obligations.FencesAreSetAndLifted : Prop :=
  ∀ (s : State) (c : Client) (tag : Byte) (body : List Byte),
    (Sent s c .fence tag body →
      (s.supervisor ≠ c → Answers (.fence c) s s c tag .notSupervisor []) ∧
      (s.supervisor = c → (body = [] ∨ ¬body.Nodup ∨ ∃ b ∈ body, 23 < b.toNat) →
        Answers (.fence c) s s c tag .badLines []) ∧
      (s.supervisor = c → body ≠ [] → body.Nodup → (∀ b ∈ body, b.toNat ≤ 23) →
        ∃ newly all : LineSet,
          (∀ l : Line, inSet l newly = true ↔ byteOf l.val ∈ body ∧ inSet l s.fences = false) ∧
          (∀ l : Line, inSet l all = true ↔ byteOf l.val ∈ body ∨ inSet l s.fences = true) ∧
          Answers (.fence c) s { s with fences := all } c tag .ok (maskBytes newly ++ maskBytes all))) ∧
    (Sent s c .unfence tag body →
      (s.supervisor ≠ c → Answers (.unfence c) s s c tag .notSupervisor []) ∧
      (s.supervisor = c → (body = [] ∨ ¬body.Nodup ∨ ∃ b ∈ body, 23 < b.toNat) →
        Answers (.unfence c) s s c tag .badLines []) ∧
      (s.supervisor = c → body ≠ [] → body.Nodup → (∀ b ∈ body, b.toNat ≤ 23) →
        ∃ newly all : LineSet,
          (∀ l : Line, inSet l newly = true ↔ byteOf l.val ∈ body ∧ inSet l s.fences = true) ∧
          (∀ l : Line, inSet l all = true ↔ byteOf l.val ∉ body ∧ inSet l s.fences = true) ∧
          Answers (.unfence c) s (({ s with fences := all } : State).grantScan).settleAttention c tag .ok
            (maskBytes newly ++ maskBytes all)))

/-- R78. SET TICK from the supervisor, with one rate code up to 7, sets the rate and restarts the interval: the position
reached is discarded, and no count changes. Any other body is refused with BAD_ARGUMENT, and any other client with
NOT_SUPERVISOR. -/
def Obligations.TickRateIsSet : Prop :=
  ∀ (s : State) (c : Client) (tag : Byte) (body : List Byte), Sent s c .setTick tag body →
    (s.supervisor ≠ c → Answers (.setTick c) s s c tag .notSupervisor []) ∧
    (s.supervisor = c → ∀ r : Fin 8, body = [byteOf r.val] →
      Answers (.setTick c) s { s with tickRate := r, tickPosition := 0 } c tag .ok [byteOf r.val]) ∧
    (s.supervisor = c → (∀ r : Fin 8, body ≠ [byteOf r.val]) → Answers (.setTick c) s s c tag .badArgument [])

/-- R131, R132. SET CONVERTER from the supervisor replaces both settings and answers them; a code that names no value is
refused with BAD_ARGUMENT; a request in flight keeps the settings that it took. -/
def Obligations.ConverterIsSet : Prop :=
  (∀ (s : State) (c : Client) (tag : Byte) (r : Reference) (a : AcqTime), s.supervisor = c →
    Sent s c .setConverter tag
      [match r with | .internal => 0x00 | .supply => 0x01,
        match a with | .us4 => 0x00 | .us8 => 0x01 | .us16 => 0x02 | .us32 => 0x03] →
      Answers (.setConverter c) s { s with reference := r, acquisition := a } c tag .ok
        [match r with | .internal => 0x00 | .supply => 0x01,
          match a with | .us4 => 0x00 | .us8 => 0x01 | .us16 => 0x02 | .us32 => 0x03]) ∧
  (∀ (s : State) (c : Client) (tag : Byte) (body : List Byte), s.supervisor = c → Sent s c .setConverter tag body →
    (body.length ≠ 2 ∨ ∃ x y, body = [x, y] ∧ (1 < x.toNat ∨ 3 < y.toNat)) →
      Answers (.setConverter c) s s c tag .badArgument [])

/-- R8, R57, R76, R131, R169, R174, R175. Outside a reset these change in one way only, by the supervisor's own command: the
fence set by FENCE and UNFENCE, the idle plan by SET IDLE PLAN, the tick rate by SET TICK, the converter's settings by SET
CONVERTER, the holder of supervision by HAND OVER. The straps and the first holder come with the release of a reset, and the
reset cause with no other event than a reset or a supply loss. -/
def Obligations.OnlyTheSupervisorChangesSettings : Prop :=
  ∀ (s t : State) (row : Instr), exec row s = .next t → isResetRow row = false →
    t.cause = s.cause ∧
    ((∃ a b v, row = .resetRelease a b v ∧ s.phase = .inReset) ∨ t.straps = s.straps) ∧
    (t.supervisor = s.supervisor ∨ row = .handOver s.supervisor ∨
      ∃ a b v, row = .resetRelease a b v ∧ s.phase = .inReset) ∧
    (t.fences = s.fences ∨ row = .fence s.supervisor ∨ row = .unfence s.supervisor) ∧
    (t.idlePlan = s.idlePlan ∨ row = .setIdlePlan s.supervisor) ∧
    (t.tickRate = s.tickRate ∨ row = .setTick s.supervisor) ∧
    ((t.reference = s.reference ∧ t.acquisition = s.acquisition) ∨ row = .setConverter s.supervisor)

/-- R19. An entry's generation advances by 1, modulo 8, in every event in which the entry becomes FREE from another state,
and in no other event but a reset. -/
def Obligations.GenerationAdvancesWithFreeing : Prop :=
  ∀ (s t : State) (row : Instr), exec row s = .next t → isResetRow row = false → ∀ i : Slot,
    (t.entry i).generation =
      if (s.entry i).body ≠ .free ∧ (t.entry i).body = .free then (s.entry i).generation + 1 else (s.entry i).generation

/-- R49, R172, R177, R180, R183. CLEAR ALL from the supervisor tears down every other ATTACHED client with CLEARED and empties
its slot, so that a read of it gives FFh from then on, makes every entry FREE, and keeps the fences, the idle plan, the tick
rate, the converter settings, the supervisor's session and its pending client reason; the response gives the entries freed
and the clients torn down. With a body it is refused with BAD_ARGUMENT. -/
def Obligations.ClearAllFreesEverything : Prop :=
  (∀ (s : State) (c : Client) (tag : Byte) (body : List Byte), s.supervisor = c → Sent s c .clearAll tag body → body ≠ [] →
    Answers (.clearAll c) s s c tag .badArgument []) ∧
  ∀ (s : State) (c : Client) (tag : Byte), s.supervisor = c → Sent s c .clearAll tag [] →
    ∃ (u : State) (torn : Byte),
      Answers (.clearAll c) s u c tag .ok [byteOf (allSlots.filter fun i => (s.entry i).body ≠ .free).length, torn] ∧
      (∀ n : Client, torn.getLsbD n.val = true ↔ n ≠ c ∧ (s.client n).attached = true) ∧
      (∀ i : Slot, u.entry i = ⟨if (s.entry i).body = .free then (s.entry i).generation else (s.entry i).generation + 1, .free⟩ ∧
        u.noticesOf i = if (s.entry i).body = .free then s.noticesOf i else PendingSet.empty) ∧
      u.waitList = s.waitList.filter (fun i => !(s.entry i).body.isWaiting) ∧
      (∀ l : Line, u.effective[l] = if s.exclusiveSlot l = none then s.effective[l] else s.idlePlan[l]) ∧
      (∀ g : GenIx, u.generators[g] =
        match s.generators[g] with
        | .free => .free
        | .running r => if (s.entry r.slot).body.heldClaim.isSome then .free else .running r) ∧
      u.convQueue = s.convQueue.filter (fun r => !decide ((s.entry r.slot).body.convState = some .queued)) ∧
      u.inFlight = s.inFlight.map (fun f => { f with
        disturbed := f.disturbedBetween s.effective u.effective
        discard := f.discard || decide ((s.entry f.request.slot).body.convState = some .inFlight) }) ∧
      (∀ n : Client,
        if n ≠ c ∧ (s.client n).attached = true then
          u.client n = { s.client n with attached := false, count := none, lastEnd := .cleared } ∧
            u.slot n = ⟨.none, false, false⟩ ∧ u.gained[n] = none ∧ u.cursors[n] = 31
        else u.client n = s.client n ∧ u.slot n = s.slot n ∧ u.gained[n] = s.gained[n] ∧ u.cursors[n] = s.cursors[n]) ∧
      u.portI = { s.portI with
        bus := match s.portI.bus with
          | .reading n r => .reading n (if n ≠ c ∧ (s.client n).attached = true then ⟨[], false⟩ else r)
          | b => b } ∧
      u.portS = { s.portS with
        window := match s.portS.window with
          | .fetch n r => .fetch n (if n ≠ c ∧ (s.client n).attached = true then ⟨[], false⟩ else r)
          | w => w } ∧
      u = { s with
        entries := u.entries, notices := u.notices, waitList := u.waitList, effective := u.effective
        generators := u.generators, convQueue := u.convQueue, inFlight := u.inFlight, clients := u.clients
        slots := u.slots, gained := u.gained, cursors := u.cursors, portI := u.portI, portS := u.portS
        attnI := u.attnI, attnS := u.attnS }

/-! ## Notices -/

/-- R151, R152, R189. FETCH NOTICE returns SUPERVISION_GAINED first; else the whole pending set of the next entry of the
caller after its cursor, with every payload, and empties it, clears the OVERRUN mark with CONVERTED and moves the cursor; else
nothing. The more-pending bit is that of the state after the fetch. With a body it is refused with BAD_ARGUMENT and collects
nothing. -/
def Obligations.FetchReturnsNextNotice : Prop :=
  (∀ (s : State) (c : Client) (tag : Byte) (body : List Byte), Sent s c .fetchNotice tag body → body ≠ [] →
    Answers (.fetchNotice c) s s c tag .badArgument []) ∧
  ∀ (s : State) (c : Client) (tag : Byte), Sent s c .fetchNotice tag [] →
    (∀ giver : Client, s.gained[c] = some giver → ∀ u : State, u = { s with gained := s.gained.set c none } →
      Answers (.fetchNotice c) s u.settleAttention c tag .ok
        [if u.hasNotice c then 0x81 else 0x01, 0x01, byteOf giver.val]) ∧
    (∀ (k : Fin 32) (i : Slot) (p : PendingSet) (body : EntryBody) (u : State), s.gained[c] = none →
      i = s.cursors[c] + 1 + k → (s.entry i).body.ownedBy c = true → s.noticesOf i = p → p ≠ PendingSet.empty →
      (∀ j : Fin 32, j < k → (s.entry (s.cursors[c] + 1 + j)).body.ownedBy c = true →
        s.noticesOf (s.cursors[c] + 1 + j) = PendingSet.empty) →
      body = (match p.converted, (s.entry i).body with
        | true, .held cl h => .held cl { h with result := h.result.map fun r => { r with overrun := false } }
        | true, .ended cl t => .ended cl { t with result := t.result.map fun r => { r with overrun := false } }
        | _, b => b) →
      u = { s with
        entries := s.entries.set i ⟨(s.entry i).generation, body⟩
        notices := s.notices.set i PendingSet.empty
        cursors := s.cursors.set c i } →
        Answers (.fetchNotice c) s u.settleAttention c tag .ok
          ([if u.hasNotice c then 0x82 else 0x02, handleByte (s.entry i).generation i,
              byteOf (s.entry i).body.stateCode,
              byteOf ((if p.granted then 1 else 0) + (if p.due then 2 else 0) + (if p.ended.isSome then 4 else 0)
                + (if p.edge.isSome then 8 else 0) + (if p.converted then 16 else 0) + if p.pulseApplied then 32 else 0)]
            ++ (if p.due then
                match (s.entry i).body with | .held _ h => bytes16 h.remaining | _ => [0, 0]
              else [])
            ++ (match p.ended with | none => [] | some r => [r.code])
            ++ (match p.edge with | none => [] | some e => maskBytes e.changed ++ [byteOf e.count])
            ++ (if p.converted then
                match (s.entry i).body.result with
                | none => []
                | some r => [byteOf r.line.val, r.statusByte] ++ bytes16 (r.value.getD 0)
              else []))) ∧
    (s.gained[c] = none → (∀ i : Slot, (s.entry i).body.ownedBy c = true → s.noticesOf i = PendingSet.empty) →
      Answers (.fetchNotice c) s s c tag .ok [0x00])

/-! ## Ticks -/

/-- R72 to R74, R76, R77, R79, R80, R82, R87, R89, R90, Table 4-1. TICK comes at the end of the interval of the rate in force:
the next one begins, and the tick is on its way to every entry and client record (log 4). At any other moment, as after a SET
TICK, no tick is emitted (log 3); during a reset no interval runs (log 19). A tick on its way that reaches an entry, by
whichever of its four rows, acts by the state that the entry is in: a HELD lease counts its term, posts DUE at its due mark,
and lapses when the count would be 0, with a grant scan; a waiting entry with a wait limit counts its wait and expires
likewise; no other entry changes. -/
def Obligations.TicksSetOutAndReachEntries : Prop :=
  (∀ s : State,
    (s.phase.active = true → tickPeriods s.tickRate ≤ s.tickPosition →
      exec .tick s = .next { s with
        tickPosition := 0
        entryTicks := Vector.replicate 32 true
        clientTicks := Vector.replicate 8 true }) ∧
    (s.phase.active = false ∨ s.tickPosition < tickPeriods s.tickRate → exec .tick s = .next s)) ∧
  (List.finRange 8).map tickPeriods = [8000, 16000, 40000, 80000, 160000, 400000, 800000, 1600000] ∧
  (∀ (s v : State) (row : Instr) (i : Slot), row ∈ [Instr.termTick i, .lapse i, .waitTick i, .waitExpiry i] →
    (s.entryTicks[i] = false → exec row s = .next s) ∧
    (s.entryTicks[i] = true → v = { s with entryTicks := s.entryTicks.set i false } →
      (∀ cl h, (s.entry i).body = .held cl h →
        (2 ≤ h.remaining →
          exec row s = .next (({ v with
            entries := s.entries.set i ⟨(s.entry i).generation, .held cl { h with remaining := h.remaining - 1 }⟩
            notices := if h.due = some (h.remaining - 1) then s.notices.set i { s.noticesOf i with due := true }
              else s.notices } : State).settleAttention)) ∧
        (h.remaining ≤ 1 → exec row s = .next ((v.entomb i .lapsed).grantScan).settleAttention)) ∧
      (∀ cl w, (s.entry i).body = .waiting cl w →
        (w.wait = none → exec row s = .next v) ∧
        (∀ limit left, w.wait = some ⟨limit, left⟩ → 2 ≤ left →
          exec row s = .next { v with
            entries := s.entries.set i ⟨(s.entry i).generation, .waiting cl { w with wait := some ⟨limit, left - 1⟩ }⟩ }) ∧
        (∀ limit left, w.wait = some ⟨limit, left⟩ → left ≤ 1 →
          exec row s = .next ((v.entomb i .waitExpired).grantScan).settleAttention)) ∧
      ((s.entry i).body = .free → exec row s = .next v) ∧
      (∀ cl t, (s.entry i).body = .ended cl t → exec row s = .next v)))

/-- R77, R165, R166. A tick on its way that reaches a client record, by either of its rows, lowers a running session count,
and ends the session with TIMED_OUT, an emptied slot and a grant scan when the count would be 0 (log 4). -/
def Obligations.TickReachesSession : Prop :=
  ∀ (s v : State) (row : Instr) (c : Client), row ∈ [Instr.sessionCountTick c, .sessionExpiry c] →
    (s.clientTicks[c] = false → exec row s = .next s) ∧
    (s.clientTicks[c] = true → v = { s with clientTicks := s.clientTicks.set c false } →
      ((s.client c).count = none → exec row s = .next v) ∧
      (∀ n, (s.client c).count = some n → 2 ≤ n →
        exec row s = .next { v with clients := s.clients.set c { s.client c with count := some (n - 1) } }) ∧
      (∀ n, (s.client c).count = some n → n ≤ 1 →
        exec row s = .next ((((v.teardown c .timedOut).emptySlot c).grantScan).settleAttention)))

/-! ## Sampler, pulse bank and converter -/

/-- R94 to R96, R106, R107, R112. A sample comes every 8000 oscillator periods and at no other moment (log 3). It replaces
every last sample by the level at the pad, LOW for an ANALOG line, and gives each watched line one filter step; a flip that
matches its sense joins the pending EDGE with its line and its count, which stays at 255. The level of a wire: a device on
the board that drives it, else the part's driver, else its pull, else the board (log 8). During a reset no sample is taken
(log 19). -/
def Obligations.SampleReachesEveryWatch : Prop :=
  (∀ (s : State) (driven level : LineSet), s.phase.active = false ∨ s.samplePosition < 8000 →
    exec (.lineSample driven level) s = .next s) ∧
  (∀ (s : State) (driven level : LineSet), s.phase.active = true → 8000 ≤ s.samplePosition →
    ∃ t, exec (.lineSample driven level) s = .next t ∧
      (∀ l : Line, t.lastSample[l] =
        if s.effective[l].mode = .analog then .low
        else if inSet l driven = true then levelOfBool (inSet l level)
        else
          match s.lineDriver l, s.effective[l].effectivePull with
          | .drives v, _ => v
          | .off, .up => .high
          | .off, .down => .low
          | .off, .none => levelOfBool (inSet l level)) ∧
      (∀ i : Slot, ∀ cl h w, (s.entry i).body = .held cl h → h.watch = some w →
        (∃ lines, t.entry i = ⟨(s.entry i).generation, .held cl { h with watch := some { w with lines := lines } }⟩ ∧
          lines = w.lines.map (fun x =>
            if t.lastSample[x.line] = x.stable then { x with run := 0 }
            else if x.run + 1 = w.filter then { x with stable := t.lastSample[x.line], run := 0 }
            else { x with run := x.run + 1 })) ∧
        ∀ flips : List Line,
          flips = (w.lines.filter fun x => t.lastSample[x.line] ≠ x.stable && x.run + 1 = w.filter &&
            (x.sense = .both || (x.sense = .rising && t.lastSample[x.line] = .high)
              || (x.sense = .falling && t.lastSample[x.line] = .low))).map WatchedLine.line →
          t.noticesOf i =
            if flips = [] then s.noticesOf i
            else
              match (s.noticesOf i).edge with
              | none => { s.noticesOf i with edge := some ⟨lineSet flips, min 255 flips.length⟩ }
              | some e => { s.noticesOf i with edge := some ⟨e.changed ||| lineSet flips, min 255 (e.count + flips.length)⟩ }) ∧
      (∀ i : Slot, (∀ cl h w, (s.entry i).body = .held cl h → h.watch ≠ some w) →
        t.entry i = s.entry i ∧ t.noticesOf i = s.noticesOf i) ∧
      t = { s with
        lastSample := t.lastSample, samplePosition := 0, entries := t.entries, notices := t.notices
        attnI := t.attnI, attnS := t.attnS })

/-- R3, R6, R119. What drives a line: nothing in INPUT and ANALOG; its level in PUSH_PULL; LOW or nothing in OPEN_DRAIN; in
PULSE the output of its generator, active below the high count, mapped by the polarity. Out of reset that is the driver of
the line's pad, and while a reset is in progress the whole pad is high impedance (R17). -/
def Obligations.PadsFollowTheirModes : Prop :=
  ∀ (s : State) (l : Line),
    (s.effective[l].mode = .input ∨ s.effective[l].mode = .analog → s.lineDriver l = .off) ∧
    (s.effective[l].mode = .pushPull → s.lineDriver l = .drives s.effective[l].level) ∧
    (s.effective[l].mode = .openDrain →
      s.lineDriver l = if s.effective[l].level = .low then .drives .low else .off) ∧
    (∀ (g : GenIx) (r : Running), s.effective[l].mode = .pulse → s.generators[g] = .running r → r.line = l →
      (∀ (g' : GenIx) (r' : Running), s.generators[g'] = .running r' → r'.line = l → g' = g) →
        s.lineDriver l = .drives
          (match s.effective[l].level, decide (r.count < r.high) with
           | .low, true => .high
           | .low, false => .low
           | .high, true => .low
           | .high, false => .high)) ∧
    (s.phase.active = true → (s.pad l).driver = s.lineDriver l ∧
      (s.pad l).pull = (match s.effective[l].mode with | .input | .openDrain => s.effective[l].pull | _ => .none) ∧
      ((s.pad l).channel = true ↔ s.effective[l].mode = .analog) ∧
      ((s.pad l).digitalInput = true ↔ s.effective[l].mode ≠ .analog)) ∧
    (s.phase.active = false → (s.pad l).driver = .off ∧ (s.pad l).pull = .none ∧ (s.pad l).channel = false)

/-- R117, R118, R120, R124. A pulse-clock count comes when the prescale position of a lease's group has reached the divider,
and at no other moment (log 3). It advances the generators of the group together; the count that would reach the period is the
wrap, which GENERATOR_WRAP is alone: the counts return to 0, and a pending update takes effect on every generator of the group
and on the lease's setting, and posts PULSE_APPLIED. Where the group is not there, nothing changes (log 14, log 15). -/
def Obligations.PulseGroupCountsAndWraps : Prop :=
  (∀ (s : State) (i : Slot), (∀ (g : GenIx) (r : Running), s.generators[g] = .running r → r.slot ≠ i) →
    exec (.generatorWrap i) s = .next s ∧ exec (.pulseClockCount i) s = .next s) ∧
  ∀ (s : State) (i : Slot) (x : GenIx) (run : Running), s.generators[x] = .running run → run.slot = i →
    (∀ (y : GenIx) (other : Running), s.generators[y] = .running other → other.slot = i →
      other.count = run.count ∧ other.period = run.period ∧ other.counting = run.counting) →
      (run.counting = false → exec (.generatorWrap i) s = .next s ∧ exec (.pulseClockCount i) s = .next s) ∧
      (run.counting = true → run.count + 1 < run.period →
        exec (.generatorWrap i) s = .next s ∧
        exec (.pulseClockCount i) s = .next { s with
          generators := tabulate fun g =>
            match s.generators[g] with
            | .free => .free
            | .running r => if r.slot = i then .running { r with count := run.count + 1, counting := false } else .running r }) ∧
      (run.counting = true → run.period ≤ run.count + 1 → ∀ row ∈ [Instr.generatorWrap i, .pulseClockCount i],
        (∀ cl h g u, (s.entry i).body = .held cl h → h.pulse = some g → g.update = some u →
          exec row s = .next (({ s with
            generators := tabulate fun k =>
              match s.generators[k] with
              | .free => .free
              | .running r =>
                if r.slot = i then .running { r with
                  divider := u.setting.divider
                  period := u.setting.period
                  high := (((pulseLines h.configs).zip u.setting.highs).lookup r.line).getD r.high
                  count := 0
                  prescale := 0
                  counting := false }
                else .running r
            entries := s.entries.set i ⟨(s.entry i).generation, .held cl { h with
              pulse := some ⟨u.setting, g.generators, none⟩ }⟩
            notices := s.notices.set i { s.noticesOf i with pulseApplied := true } } : State).settleAttention)) ∧
        ((∀ cl h g u, (s.entry i).body = .held cl h → h.pulse = some g → g.update ≠ some u) →
          exec row s = .next { s with
            generators := tabulate fun k =>
              match s.generators[k] with
              | .free => .free
              | .running r =>
                if r.slot = i then .running { r with count := 0, prescale := 0, counting := false } else .running r }))

/-- R134, R135. A CONVERT that passes its checks is appended to the queue with its lease QUEUED; an IDLE converter starts it
within the event, with the settings in force, and its lease is IN_FLIGHT. The response gives the position. A body that is not a
handle, a line and 1, 2, 4 or 8 samples is refused with BAD_ARGUMENT, and a line above 23 with BAD_LINES. -/
def Obligations.ConvertIsQueuedOrStarted : Prop :=
  (∀ (s : State) (c : Client) (tag : Byte) (body : List Byte), Sent s c .convert tag body →
    (body.length ≠ 3 → Answers (.convert c) s s c tag .badArgument []) ∧
    ∀ h l n, body = [h, l, n] →
      (n.toNat ∉ [1, 2, 4, 8] → Answers (.convert c) s s c tag .badArgument []) ∧
      (n.toNat ∈ [1, 2, 4, 8] → 23 < l.toNat → Answers (.convert c) s s c tag .badLines [])) ∧
  (∀ (l : Line) (n : Nat), n ∈ [1, 2, 4, 8] → convertRequest [byteOf l.val, byteOf n] = .ok (l, n)) ∧
  ∀ (s : State) (c : Client) (tag h : Byte) (i : Slot) (cl : Claim) (hd : Held) (l : Line) (n : Nat), Names s c h i →
    (s.entry i).body = .held cl hd → l ∈ cl.lines → n ∈ [1, 2, 4, 8] →
    Sent s c .convert tag [h, byteOf l.val, byteOf n] →
      (s.effective[l].mode ≠ .analog → Answers (.convert c) s s c tag .mode []) ∧
      (s.effective[l].mode = .analog → hd.conv ≠ .none → Answers (.convert c) s s c tag .busy []) ∧
      (s.effective[l].mode = .analog → hd.conv = .none → 8 ≤ s.convQueue.length →
        Answers (.convert c) s s c tag .queueFull []) ∧
      (s.effective[l].mode = .analog → hd.conv = .none → s.convQueue.length < 8 → s.inFlight ≠ none →
        Answers (.convert c) s
          ({ s with
            entries := s.entries.set i ⟨(s.entry i).generation, .held cl { hd with conv := .queued }⟩
            convQueue := s.convQueue ++ [⟨i, l, n⟩] } : State).settleAttention
          c tag .ok [byteOf (s.convQueue.length + 1)]) ∧
      (s.effective[l].mode = .analog → hd.conv = .none → s.inFlight = none → s.convQueue = [] →
        Answers (.convert c) s
          ({ s with
            entries := s.entries.set i ⟨(s.entry i).generation, .held cl { hd with conv := .inFlight }⟩
            inFlight := some ⟨⟨i, l, n⟩, 0, 0, s.reference, s.acquisition, false, false, .acquiring, 0⟩ } : State).settleAttention
          c tag .ok [0x00])

/-- R1, R130, R138. At the end of its acquisition time, 4, 8, 16 or 32 µs, and of its conversion time, 12 µs, and at no other
moment (log 3), the converter goes on with a sample. At the end of its acquisition a sample holds the voltage of its line, or
ground where the line is not ANALOG; at the end of its conversion its code is added: the voltage times 1024 over the
reference, rounded down, from 0 to 1023; and the next sample begins while some are to come. Voltages are whole microvolts, and
with reference SUPPLY the reference is VDD at the end of the conversion (log 9, the model's choice); a row that finds the
converter at another point changes nothing (log 15). -/
def Obligations.SamplesAreHeldAndConverted : Prop :=
  (∀ (s : State) (f : InFlight) (v : Int), s.inFlight = some f → f.phase = .acquiring → s.phase.active = true →
    (match f.acquisition with | .us4 => 32 | .us8 => 64 | .us16 => 128 | .us32 => 256) ≤ f.elapsed →
    exec (.acquisitionEnd v) s = .next { s with
      inFlight := some { f with
        phase := .converting (if s.effective[f.request.line].mode = .analog then v else 0)
        elapsed := 0 } }) ∧
  (∀ (s : State) (v : Int), (s.inFlight = none ∨ (∃ f v', s.inFlight = some f ∧ f.phase = .converting v') ∨
      ∃ f, s.inFlight = some f ∧ f.elapsed < (match f.acquisition with | .us4 => 32 | .us8 => 64 | .us16 => 128 | .us32 => 256)) →
    exec (.acquisitionEnd v) s = .next s) ∧
  (∀ (s : State) (f : InFlight) (held vdd ref : Int) (code : Nat), s.inFlight = some f → f.phase = .converting held →
    96 ≤ f.elapsed → f.done + 1 < f.request.samples → ref = (if f.reference = .internal then 2048000 else vdd) → 0 < ref →
    (held < 0 → code = 0) → (0 ≤ held → 1023 * ref ≤ held * 1024 → code = 1023) →
    (0 ≤ held → held * 1024 < 1023 * ref → code * ref ≤ held * 1024 ∧ held * 1024 < (code + 1) * ref) →
      exec (.sampleConversionEnd vdd) s = .next { s with
        inFlight := some { f with done := f.done + 1, sum := f.sum + code, phase := .acquiring, elapsed := 0 } } ∧
      exec (.conversionComplete vdd) s = .next s) ∧
  (∀ (s : State) (vdd : Int), (s.inFlight = none ∨ ∃ f, s.inFlight = some f ∧ (f.phase = .acquiring ∨ f.elapsed < 96)) →
    exec (.sampleConversionEnd vdd) s = .next s ∧ exec (.conversionComplete vdd) s = .next s)

/-- R137, R140, R141. The end of the last sample completes the request, by either of its rows. Without the discard mark its
lease's result slot takes the mean of its codes, rounded down, with DISTURBED or OK, and OVERRUN if CONVERTED is pending, and
CONVERTED is posted; with the mark nothing is written. The converter then starts the oldest queued request whose line is
ANALOG; each queued request before it completes with MODE_LOST and no value; with none the converter is IDLE. That
either row completes the request is log 15; the code of the last sample, with VDD at its end as the SUPPLY reference, is that
of log 9 (the model's choice); it comes 12 µs after the sample was held, and at no other moment (log 3). -/
def Obligations.CompletionDeliversResult : Prop :=
  (∀ (s : State) (f : InFlight) (held vdd : Int) (row : Instr) (sum : Nat),
    row ∈ [Instr.sampleConversionEnd vdd, .conversionComplete vdd] → s.inFlight = some f → f.phase = .converting held →
    96 ≤ f.elapsed → f.request.samples ≤ f.done + 1 → sum = f.sum + codeOf held (referenceVoltage f.reference vdd) →
      (f.discard = true → exec row s = .next (startNext s.convQueue s).settleAttention) ∧
      (∀ cl h, f.discard = false → (s.entry f.request.slot).body = .held cl h →
        exec row s = .next (startNext s.convQueue { s with
          entries := s.entries.set f.request.slot ⟨(s.entry f.request.slot).generation, .held cl { h with
            conv := .none
            result := some ⟨f.request.line, some (sum / f.request.samples), if f.disturbed then .disturbed else .ok,
              (s.noticesOf f.request.slot).converted⟩ }⟩
          notices := s.notices.set f.request.slot { s.noticesOf f.request.slot with converted := true } }).settleAttention)) ∧
  (∀ s : State, startNext [] s = { s with convQueue := [], inFlight := none }) ∧
  (∀ (s : State) (r : Request) (rest : List Request) (cl : Claim) (h : Held), (s.entry r.slot).body = .held cl h →
    (s.effective[r.line].mode = .analog →
      startNext (r :: rest) s = { s with
        entries := s.entries.set r.slot ⟨(s.entry r.slot).generation, .held cl { h with conv := .inFlight }⟩
        convQueue := rest
        inFlight := some ⟨r, 0, 0, s.reference, s.acquisition, false, false, .acquiring, 0⟩ }) ∧
    (s.effective[r.line].mode ≠ .analog →
      startNext (r :: rest) s = startNext rest { s with
        entries := s.entries.set r.slot ⟨(s.entry r.slot).generation, .held cl { h with
          conv := .none
          result := some ⟨r.line, none, .modeLost, (s.noticesOf r.slot).converted⟩ }⟩
        notices := s.notices.set r.slot { s.noticesOf r.slot with converted := true } }))

/-! ## Resets -/

/-- R8, R18, R57, R64, R76, R94, R116, R131, R133, R146, R150, R156, R159, R168, R169, R174, R175, R183. A reset source begins
a reset with every record at its reset value and its cause recorded; one that asserts during a reset changes nothing; a
supply below 1.5 V ends all state, and the reset that follows records POWER_ON (log 16, log 17). Reset release samples the
straps, which choose the holder of supervision, and begins the initialization period; its end, 2 ms later
and at no other moment (log 3), lets both ports take frames; where the part is not at that point nothing changes (log 15).
During a reset the straps and the holder of supervision have the values of log 19, which are those of log 1: the model's
choice, since the guide gives them at reset release. -/
def Obligations.ResetsClearAndRelease : Prop :=
  (∀ (s u : State), u = { s with
      phase := .inReset, straps := ⟨false, false, false⟩
      clients := tabulate fun _ => ⟨false, 0, 0, none, false, .noneYet⟩
      supervisor := 0
      slots := tabulate fun _ => ⟨.none, false, false⟩
      portI := ⟨.idle, false, []⟩, portS := ⟨.closed, []⟩
      entries := tabulate fun _ => ⟨0, .free⟩
      waitList := [], fences := 0
      tickRate := 3, tickPosition := 0
      entryTicks := tabulate fun _ => false
      clientTicks := tabulate fun _ => false
      idlePlan := tabulate fun _ => ⟨.input, .none, .low⟩
      effective := tabulate fun _ => ⟨.input, .none, .low⟩
      lastSample := tabulate fun _ => .low
      samplePosition := 0
      generators := tabulate fun _ => .free
      reference := .internal, acquisition := .us8, convQueue := [], inFlight := none
      notices := tabulate fun _ => PendingSet.empty
      gained := tabulate fun _ => none
      cursors := tabulate fun _ => 31
      attnI := false, attnS := false } →
    exec .powerOnReset s = .next { u with cause := .powerOn } ∧
    exec .supplyLoss s = .next { u with phase := .noSupply, cause := .powerOn } ∧
    (s.phase.active = true →
      exec .resetPinReset s = .next { u with cause := .resetPin } ∧
      exec .supplyLowReset s = .next { u with cause := .supplyLow }) ∧
    (s.phase.active = false → exec .resetPinReset s = .next s ∧ exec .supplyLowReset s = .next s)) ∧
  ((∀ (s : State) (as1 as0 supv : Bool), s.phase = .inReset →
    exec (.resetRelease as1 as0 supv) s = .next { s with
      phase := .initializing 0, straps := ⟨as1, as0, supv⟩, supervisor := if supv then 4 else 0
      attnI := false, attnS := false }) ∧
  (∀ (s : State) (as1 as0 supv : Bool), s.phase ≠ .inReset → exec (.resetRelease as1 as0 supv) s = .next s) ∧
  (∀ (s : State) (n : Nat), s.phase = .initializing n → 16000 ≤ n →
    ∃ t, exec .initializationEnd s = .next t ∧
      t = { s with phase := .running, attnI := t.attnI, attnS := t.attnS } ∧ AttentionLaw t) ∧
  (∀ s : State, (∀ n, s.phase = .initializing n → n < 16000) → exec .initializationEnd s = .next s))

/-! ## The laws of the part, kept by every step -/

/-- R56: kept by every step. -/
def Obligations.HoldersStayApart : Prop := ∀ s t : State, HolderLaw s → step s = .next t → HolderLaw t

/-- R64, R65: kept by every step. -/
def Obligations.WaitListStaysExact : Prop := ∀ s t : State, WaitListLaw s → step s = .next t → WaitListLaw t

/-- R72, R80, R82, Table 9-3; and R76, R77, R79, R81, R94, R138, R175 (with log 2 to log 4): two laws, each kept by every step.
The counts of entries and sessions lie in their ranges; and no position passes the end of its interval, and no tick outlives
the instant at which it was emitted. -/
def Obligations.CountsStayInRange : Prop :=
  (∀ s t : State, CountdownLaw s → step s = .next t → CountdownLaw t) ∧
  (∀ s t : State, ClockLaw s → step s = .next t → ClockLaw t)

/-- R33, R146, R150, R157, R166: kept by every step. -/
def Obligations.SessionsStayWithinQuota : Prop := ∀ s t : State, SessionLaw s → step s = .next t → SessionLaw t

/-- R2, R21, R23, R103, R106, R123: kept by every step. -/
def Obligations.RecordsStayWellFormed : Prop := ∀ s t : State, RecordLaw s → step s = .next t → RecordLaw t

/-- R5, R10, R12 to R14: kept by every step from a state with well formed records and holders apart. -/
def Obligations.LinesFollowTheirSource : Prop :=
  ∀ s t : State, RecordLaw s → HolderLaw s → SourceLaw s → step s = .next t → SourceLaw t

/-- R115, R117, R118, R120, Table 6-1: kept by every step from a state with well formed records. -/
def Obligations.GeneratorsFollowTheirLeases : Prop :=
  ∀ s t : State, RecordLaw s → GeneratorLaw s → step s = .next t → GeneratorLaw t

/-- R133, R136, R138, R140, R141: kept by every step. -/
def Obligations.ConverterStaysConsistent : Prop := ∀ s t : State, ConverterLaw s → step s = .next t → ConverterLaw t

/-- R46, R112, R146, R149: kept by every step from a state with well formed records and a consistent converter. -/
def Obligations.NoticesSuitTheirEntries : Prop :=
  ∀ s t : State, RecordLaw s → ConverterLaw s → NoticeLaw s → step s = .next t → NoticeLaw t

/-- R66, R67. Between events no waiting entry meets all four grant conditions: kept by every step. -/
def Obligations.NoWaiterIsGrantable : Prop :=
  ∀ s t : State, WaitListLaw s → SettledLaw s → step s = .next t → SettledLaw t

/-- R156: kept by every step. -/
def Obligations.AttentionFollowsNotices : Prop := ∀ s t : State, AttentionLaw s → step s = .next t → AttentionLaw t

/-- R17, R158, R174 to R176, R179, R182 to R184: two laws, each kept by every step. The ports and slots are in order; and while
a reset is in progress, or the supply is lost, every record stands at its reset value (log 16), the straps and the holder of
supervision at the values of log 19, the model's choice. -/
def Obligations.PortsAndResetsStayInOrder : Prop :=
  (∀ s t : State, PortLaw s → step s = .next t → PortLaw t) ∧
  (∀ s t : State, ResetLaw s → step s = .next t → ResetLaw t)

/-- Every law of the part holds right after reset. Where State.reset stands in the reset sequence is the model's choice (log 1). -/
def Obligations.LawsHoldAtReset : Prop :=
  HolderLaw State.reset ∧ WaitListLaw State.reset ∧ CountdownLaw State.reset ∧ ClockLaw State.reset ∧ SessionLaw State.reset ∧
    RecordLaw State.reset ∧ SourceLaw State.reset ∧ GeneratorLaw State.reset ∧ ConverterLaw State.reset ∧
    NoticeLaw State.reset ∧ SettledLaw State.reset ∧ AttentionLaw State.reset ∧ PortLaw State.reset ∧ ResetLaw State.reset

end Statements
end

