-- ==== Sys2Proof/Laws/State.lean ====
section
/-!
SUPPORT. What each named update leaves of each field of the state: every lemma is true by unfolding, and tagged for simp, so
that no later proof unfolds a record update. A response is a `setSlot`.
-/

namespace Sys2Proof.Machine

variable (s : State)

/-! ## setEntry -/

@[simp] theorem State.setEntry_phase (i : Slot) (e : Entry) : (s.setEntry i e).phase = s.phase := rfl
@[simp] theorem State.setEntry_cause (i : Slot) (e : Entry) : (s.setEntry i e).cause = s.cause := rfl
@[simp] theorem State.setEntry_straps (i : Slot) (e : Entry) : (s.setEntry i e).straps = s.straps := rfl
@[simp] theorem State.setEntry_clients (i : Slot) (e : Entry) : (s.setEntry i e).clients = s.clients := rfl
@[simp] theorem State.setEntry_supervisor (i : Slot) (e : Entry) : (s.setEntry i e).supervisor = s.supervisor := rfl
@[simp] theorem State.setEntry_slots (i : Slot) (e : Entry) : (s.setEntry i e).slots = s.slots := rfl
@[simp] theorem State.setEntry_portI (i : Slot) (e : Entry) : (s.setEntry i e).portI = s.portI := rfl
@[simp] theorem State.setEntry_portS (i : Slot) (e : Entry) : (s.setEntry i e).portS = s.portS := rfl
@[simp] theorem State.setEntry_entries (i : Slot) (e : Entry) : (s.setEntry i e).entries = s.entries.set i e := rfl
@[simp] theorem State.setEntry_waitList (i : Slot) (e : Entry) : (s.setEntry i e).waitList = s.waitList := rfl
@[simp] theorem State.setEntry_fences (i : Slot) (e : Entry) : (s.setEntry i e).fences = s.fences := rfl
@[simp] theorem State.setEntry_tickRate (i : Slot) (e : Entry) : (s.setEntry i e).tickRate = s.tickRate := rfl
@[simp] theorem State.setEntry_tickPosition (i : Slot) (e : Entry) :
    (s.setEntry i e).tickPosition = s.tickPosition := rfl
@[simp] theorem State.setEntry_entryTicks (i : Slot) (e : Entry) : (s.setEntry i e).entryTicks = s.entryTicks := rfl
@[simp] theorem State.setEntry_clientTicks (i : Slot) (e : Entry) :
    (s.setEntry i e).clientTicks = s.clientTicks := rfl
@[simp] theorem State.setEntry_idlePlan (i : Slot) (e : Entry) : (s.setEntry i e).idlePlan = s.idlePlan := rfl
@[simp] theorem State.setEntry_effective (i : Slot) (e : Entry) : (s.setEntry i e).effective = s.effective := rfl
@[simp] theorem State.setEntry_lastSample (i : Slot) (e : Entry) : (s.setEntry i e).lastSample = s.lastSample := rfl
@[simp] theorem State.setEntry_samplePosition (i : Slot) (e : Entry) :
    (s.setEntry i e).samplePosition = s.samplePosition := rfl
@[simp] theorem State.setEntry_generators (i : Slot) (e : Entry) : (s.setEntry i e).generators = s.generators := rfl
@[simp] theorem State.setEntry_reference (i : Slot) (e : Entry) : (s.setEntry i e).reference = s.reference := rfl
@[simp] theorem State.setEntry_acquisition (i : Slot) (e : Entry) :
    (s.setEntry i e).acquisition = s.acquisition := rfl
@[simp] theorem State.setEntry_convQueue (i : Slot) (e : Entry) : (s.setEntry i e).convQueue = s.convQueue := rfl
@[simp] theorem State.setEntry_inFlight (i : Slot) (e : Entry) : (s.setEntry i e).inFlight = s.inFlight := rfl
@[simp] theorem State.setEntry_notices (i : Slot) (e : Entry) : (s.setEntry i e).notices = s.notices := rfl
@[simp] theorem State.setEntry_gained (i : Slot) (e : Entry) : (s.setEntry i e).gained = s.gained := rfl
@[simp] theorem State.setEntry_cursors (i : Slot) (e : Entry) : (s.setEntry i e).cursors = s.cursors := rfl
@[simp] theorem State.setEntry_attnI (i : Slot) (e : Entry) : (s.setEntry i e).attnI = s.attnI := rfl
@[simp] theorem State.setEntry_attnS (i : Slot) (e : Entry) : (s.setEntry i e).attnS = s.attnS := rfl
@[simp] theorem State.setEntry_pending (i : Slot) (e : Entry) : (s.setEntry i e).pending = s.pending := rfl

/-! ## setBody -/

@[simp] theorem State.setBody_phase (i : Slot) (b : EntryBody) : (s.setBody i b).phase = s.phase := rfl
@[simp] theorem State.setBody_cause (i : Slot) (b : EntryBody) : (s.setBody i b).cause = s.cause := rfl
@[simp] theorem State.setBody_straps (i : Slot) (b : EntryBody) : (s.setBody i b).straps = s.straps := rfl
@[simp] theorem State.setBody_clients (i : Slot) (b : EntryBody) : (s.setBody i b).clients = s.clients := rfl
@[simp] theorem State.setBody_supervisor (i : Slot) (b : EntryBody) : (s.setBody i b).supervisor = s.supervisor := rfl
@[simp] theorem State.setBody_slots (i : Slot) (b : EntryBody) : (s.setBody i b).slots = s.slots := rfl
@[simp] theorem State.setBody_portI (i : Slot) (b : EntryBody) : (s.setBody i b).portI = s.portI := rfl
@[simp] theorem State.setBody_portS (i : Slot) (b : EntryBody) : (s.setBody i b).portS = s.portS := rfl
@[simp] theorem State.setBody_entries (i : Slot) (b : EntryBody) :
    (s.setBody i b).entries = s.entries.set i ⟨(s.entry i).generation, b⟩ := rfl
@[simp] theorem State.setBody_waitList (i : Slot) (b : EntryBody) : (s.setBody i b).waitList = s.waitList := rfl
@[simp] theorem State.setBody_fences (i : Slot) (b : EntryBody) : (s.setBody i b).fences = s.fences := rfl
@[simp] theorem State.setBody_tickRate (i : Slot) (b : EntryBody) : (s.setBody i b).tickRate = s.tickRate := rfl
@[simp] theorem State.setBody_tickPosition (i : Slot) (b : EntryBody) :
    (s.setBody i b).tickPosition = s.tickPosition := rfl
@[simp] theorem State.setBody_entryTicks (i : Slot) (b : EntryBody) : (s.setBody i b).entryTicks = s.entryTicks := rfl
@[simp] theorem State.setBody_clientTicks (i : Slot) (b : EntryBody) :
    (s.setBody i b).clientTicks = s.clientTicks := rfl
@[simp] theorem State.setBody_idlePlan (i : Slot) (b : EntryBody) : (s.setBody i b).idlePlan = s.idlePlan := rfl
@[simp] theorem State.setBody_effective (i : Slot) (b : EntryBody) : (s.setBody i b).effective = s.effective := rfl
@[simp] theorem State.setBody_lastSample (i : Slot) (b : EntryBody) : (s.setBody i b).lastSample = s.lastSample := rfl
@[simp] theorem State.setBody_samplePosition (i : Slot) (b : EntryBody) :
    (s.setBody i b).samplePosition = s.samplePosition := rfl
@[simp] theorem State.setBody_generators (i : Slot) (b : EntryBody) : (s.setBody i b).generators = s.generators := rfl
@[simp] theorem State.setBody_reference (i : Slot) (b : EntryBody) : (s.setBody i b).reference = s.reference := rfl
@[simp] theorem State.setBody_acquisition (i : Slot) (b : EntryBody) :
    (s.setBody i b).acquisition = s.acquisition := rfl
@[simp] theorem State.setBody_convQueue (i : Slot) (b : EntryBody) : (s.setBody i b).convQueue = s.convQueue := rfl
@[simp] theorem State.setBody_inFlight (i : Slot) (b : EntryBody) : (s.setBody i b).inFlight = s.inFlight := rfl
@[simp] theorem State.setBody_notices (i : Slot) (b : EntryBody) : (s.setBody i b).notices = s.notices := rfl
@[simp] theorem State.setBody_gained (i : Slot) (b : EntryBody) : (s.setBody i b).gained = s.gained := rfl
@[simp] theorem State.setBody_cursors (i : Slot) (b : EntryBody) : (s.setBody i b).cursors = s.cursors := rfl
@[simp] theorem State.setBody_attnI (i : Slot) (b : EntryBody) : (s.setBody i b).attnI = s.attnI := rfl
@[simp] theorem State.setBody_attnS (i : Slot) (b : EntryBody) : (s.setBody i b).attnS = s.attnS := rfl
@[simp] theorem State.setBody_pending (i : Slot) (b : EntryBody) : (s.setBody i b).pending = s.pending := rfl

/-! ## setClient -/

@[simp] theorem State.setClient_phase (c : Client) (r : ClientRecord) : (s.setClient c r).phase = s.phase := rfl
@[simp] theorem State.setClient_cause (c : Client) (r : ClientRecord) : (s.setClient c r).cause = s.cause := rfl
@[simp] theorem State.setClient_straps (c : Client) (r : ClientRecord) : (s.setClient c r).straps = s.straps := rfl
@[simp] theorem State.setClient_clients (c : Client) (r : ClientRecord) :
    (s.setClient c r).clients = s.clients.set c r := rfl
@[simp] theorem State.setClient_supervisor (c : Client) (r : ClientRecord) :
    (s.setClient c r).supervisor = s.supervisor := rfl
@[simp] theorem State.setClient_slots (c : Client) (r : ClientRecord) : (s.setClient c r).slots = s.slots := rfl
@[simp] theorem State.setClient_portI (c : Client) (r : ClientRecord) : (s.setClient c r).portI = s.portI := rfl
@[simp] theorem State.setClient_portS (c : Client) (r : ClientRecord) : (s.setClient c r).portS = s.portS := rfl
@[simp] theorem State.setClient_entries (c : Client) (r : ClientRecord) : (s.setClient c r).entries = s.entries := rfl
@[simp] theorem State.setClient_waitList (c : Client) (r : ClientRecord) :
    (s.setClient c r).waitList = s.waitList := rfl
@[simp] theorem State.setClient_fences (c : Client) (r : ClientRecord) : (s.setClient c r).fences = s.fences := rfl
@[simp] theorem State.setClient_tickRate (c : Client) (r : ClientRecord) :
    (s.setClient c r).tickRate = s.tickRate := rfl
@[simp] theorem State.setClient_tickPosition (c : Client) (r : ClientRecord) :
    (s.setClient c r).tickPosition = s.tickPosition := rfl
@[simp] theorem State.setClient_entryTicks (c : Client) (r : ClientRecord) :
    (s.setClient c r).entryTicks = s.entryTicks := rfl
@[simp] theorem State.setClient_clientTicks (c : Client) (r : ClientRecord) :
    (s.setClient c r).clientTicks = s.clientTicks := rfl
@[simp] theorem State.setClient_idlePlan (c : Client) (r : ClientRecord) :
    (s.setClient c r).idlePlan = s.idlePlan := rfl
@[simp] theorem State.setClient_effective (c : Client) (r : ClientRecord) :
    (s.setClient c r).effective = s.effective := rfl
@[simp] theorem State.setClient_lastSample (c : Client) (r : ClientRecord) :
    (s.setClient c r).lastSample = s.lastSample := rfl
@[simp] theorem State.setClient_samplePosition (c : Client) (r : ClientRecord) :
    (s.setClient c r).samplePosition = s.samplePosition := rfl
@[simp] theorem State.setClient_generators (c : Client) (r : ClientRecord) :
    (s.setClient c r).generators = s.generators := rfl
@[simp] theorem State.setClient_reference (c : Client) (r : ClientRecord) :
    (s.setClient c r).reference = s.reference := rfl
@[simp] theorem State.setClient_acquisition (c : Client) (r : ClientRecord) :
    (s.setClient c r).acquisition = s.acquisition := rfl
@[simp] theorem State.setClient_convQueue (c : Client) (r : ClientRecord) :
    (s.setClient c r).convQueue = s.convQueue := rfl
@[simp] theorem State.setClient_inFlight (c : Client) (r : ClientRecord) :
    (s.setClient c r).inFlight = s.inFlight := rfl
@[simp] theorem State.setClient_notices (c : Client) (r : ClientRecord) : (s.setClient c r).notices = s.notices := rfl
@[simp] theorem State.setClient_gained (c : Client) (r : ClientRecord) : (s.setClient c r).gained = s.gained := rfl
@[simp] theorem State.setClient_cursors (c : Client) (r : ClientRecord) : (s.setClient c r).cursors = s.cursors := rfl
@[simp] theorem State.setClient_attnI (c : Client) (r : ClientRecord) : (s.setClient c r).attnI = s.attnI := rfl
@[simp] theorem State.setClient_attnS (c : Client) (r : ClientRecord) : (s.setClient c r).attnS = s.attnS := rfl
@[simp] theorem State.setClient_pending (c : Client) (r : ClientRecord) : (s.setClient c r).pending = s.pending := rfl

/-! ## setSlot -/

@[simp] theorem State.setSlot_phase (c : Client) (r : ResponseSlot) : (s.setSlot c r).phase = s.phase := rfl
@[simp] theorem State.setSlot_cause (c : Client) (r : ResponseSlot) : (s.setSlot c r).cause = s.cause := rfl
@[simp] theorem State.setSlot_straps (c : Client) (r : ResponseSlot) : (s.setSlot c r).straps = s.straps := rfl
@[simp] theorem State.setSlot_clients (c : Client) (r : ResponseSlot) : (s.setSlot c r).clients = s.clients := rfl
@[simp] theorem State.setSlot_supervisor (c : Client) (r : ResponseSlot) :
    (s.setSlot c r).supervisor = s.supervisor := rfl
@[simp] theorem State.setSlot_slots (c : Client) (r : ResponseSlot) : (s.setSlot c r).slots = s.slots.set c r := rfl
@[simp] theorem State.setSlot_portI (c : Client) (r : ResponseSlot) : (s.setSlot c r).portI = s.portI := rfl
@[simp] theorem State.setSlot_portS (c : Client) (r : ResponseSlot) : (s.setSlot c r).portS = s.portS := rfl
@[simp] theorem State.setSlot_entries (c : Client) (r : ResponseSlot) : (s.setSlot c r).entries = s.entries := rfl
@[simp] theorem State.setSlot_waitList (c : Client) (r : ResponseSlot) : (s.setSlot c r).waitList = s.waitList := rfl
@[simp] theorem State.setSlot_fences (c : Client) (r : ResponseSlot) : (s.setSlot c r).fences = s.fences := rfl
@[simp] theorem State.setSlot_tickRate (c : Client) (r : ResponseSlot) : (s.setSlot c r).tickRate = s.tickRate := rfl
@[simp] theorem State.setSlot_tickPosition (c : Client) (r : ResponseSlot) :
    (s.setSlot c r).tickPosition = s.tickPosition := rfl
@[simp] theorem State.setSlot_entryTicks (c : Client) (r : ResponseSlot) :
    (s.setSlot c r).entryTicks = s.entryTicks := rfl
@[simp] theorem State.setSlot_clientTicks (c : Client) (r : ResponseSlot) :
    (s.setSlot c r).clientTicks = s.clientTicks := rfl
@[simp] theorem State.setSlot_idlePlan (c : Client) (r : ResponseSlot) : (s.setSlot c r).idlePlan = s.idlePlan := rfl
@[simp] theorem State.setSlot_effective (c : Client) (r : ResponseSlot) :
    (s.setSlot c r).effective = s.effective := rfl
@[simp] theorem State.setSlot_lastSample (c : Client) (r : ResponseSlot) :
    (s.setSlot c r).lastSample = s.lastSample := rfl
@[simp] theorem State.setSlot_samplePosition (c : Client) (r : ResponseSlot) :
    (s.setSlot c r).samplePosition = s.samplePosition := rfl
@[simp] theorem State.setSlot_generators (c : Client) (r : ResponseSlot) :
    (s.setSlot c r).generators = s.generators := rfl
@[simp] theorem State.setSlot_reference (c : Client) (r : ResponseSlot) :
    (s.setSlot c r).reference = s.reference := rfl
@[simp] theorem State.setSlot_acquisition (c : Client) (r : ResponseSlot) :
    (s.setSlot c r).acquisition = s.acquisition := rfl
@[simp] theorem State.setSlot_convQueue (c : Client) (r : ResponseSlot) :
    (s.setSlot c r).convQueue = s.convQueue := rfl
@[simp] theorem State.setSlot_inFlight (c : Client) (r : ResponseSlot) : (s.setSlot c r).inFlight = s.inFlight := rfl
@[simp] theorem State.setSlot_notices (c : Client) (r : ResponseSlot) : (s.setSlot c r).notices = s.notices := rfl
@[simp] theorem State.setSlot_gained (c : Client) (r : ResponseSlot) : (s.setSlot c r).gained = s.gained := rfl
@[simp] theorem State.setSlot_cursors (c : Client) (r : ResponseSlot) : (s.setSlot c r).cursors = s.cursors := rfl
@[simp] theorem State.setSlot_attnI (c : Client) (r : ResponseSlot) : (s.setSlot c r).attnI = s.attnI := rfl
@[simp] theorem State.setSlot_attnS (c : Client) (r : ResponseSlot) : (s.setSlot c r).attnS = s.attnS := rfl
@[simp] theorem State.setSlot_pending (c : Client) (r : ResponseSlot) : (s.setSlot c r).pending = s.pending := rfl

/-! ## setNotices -/

@[simp] theorem State.setNotices_phase (i : Slot) (p : PendingSet) : (s.setNotices i p).phase = s.phase := rfl
@[simp] theorem State.setNotices_cause (i : Slot) (p : PendingSet) : (s.setNotices i p).cause = s.cause := rfl
@[simp] theorem State.setNotices_straps (i : Slot) (p : PendingSet) : (s.setNotices i p).straps = s.straps := rfl
@[simp] theorem State.setNotices_clients (i : Slot) (p : PendingSet) : (s.setNotices i p).clients = s.clients := rfl
@[simp] theorem State.setNotices_supervisor (i : Slot) (p : PendingSet) :
    (s.setNotices i p).supervisor = s.supervisor := rfl
@[simp] theorem State.setNotices_slots (i : Slot) (p : PendingSet) : (s.setNotices i p).slots = s.slots := rfl
@[simp] theorem State.setNotices_portI (i : Slot) (p : PendingSet) : (s.setNotices i p).portI = s.portI := rfl
@[simp] theorem State.setNotices_portS (i : Slot) (p : PendingSet) : (s.setNotices i p).portS = s.portS := rfl
@[simp] theorem State.setNotices_entries (i : Slot) (p : PendingSet) : (s.setNotices i p).entries = s.entries := rfl
@[simp] theorem State.setNotices_waitList (i : Slot) (p : PendingSet) :
    (s.setNotices i p).waitList = s.waitList := rfl
@[simp] theorem State.setNotices_fences (i : Slot) (p : PendingSet) : (s.setNotices i p).fences = s.fences := rfl
@[simp] theorem State.setNotices_tickRate (i : Slot) (p : PendingSet) :
    (s.setNotices i p).tickRate = s.tickRate := rfl
@[simp] theorem State.setNotices_tickPosition (i : Slot) (p : PendingSet) :
    (s.setNotices i p).tickPosition = s.tickPosition := rfl
@[simp] theorem State.setNotices_entryTicks (i : Slot) (p : PendingSet) :
    (s.setNotices i p).entryTicks = s.entryTicks := rfl
@[simp] theorem State.setNotices_clientTicks (i : Slot) (p : PendingSet) :
    (s.setNotices i p).clientTicks = s.clientTicks := rfl
@[simp] theorem State.setNotices_idlePlan (i : Slot) (p : PendingSet) :
    (s.setNotices i p).idlePlan = s.idlePlan := rfl
@[simp] theorem State.setNotices_effective (i : Slot) (p : PendingSet) :
    (s.setNotices i p).effective = s.effective := rfl
@[simp] theorem State.setNotices_lastSample (i : Slot) (p : PendingSet) :
    (s.setNotices i p).lastSample = s.lastSample := rfl
@[simp] theorem State.setNotices_samplePosition (i : Slot) (p : PendingSet) :
    (s.setNotices i p).samplePosition = s.samplePosition := rfl
@[simp] theorem State.setNotices_generators (i : Slot) (p : PendingSet) :
    (s.setNotices i p).generators = s.generators := rfl
@[simp] theorem State.setNotices_reference (i : Slot) (p : PendingSet) :
    (s.setNotices i p).reference = s.reference := rfl
@[simp] theorem State.setNotices_acquisition (i : Slot) (p : PendingSet) :
    (s.setNotices i p).acquisition = s.acquisition := rfl
@[simp] theorem State.setNotices_convQueue (i : Slot) (p : PendingSet) :
    (s.setNotices i p).convQueue = s.convQueue := rfl
@[simp] theorem State.setNotices_inFlight (i : Slot) (p : PendingSet) :
    (s.setNotices i p).inFlight = s.inFlight := rfl
@[simp] theorem State.setNotices_notices (i : Slot) (p : PendingSet) :
    (s.setNotices i p).notices = s.notices.set i p := rfl
@[simp] theorem State.setNotices_gained (i : Slot) (p : PendingSet) : (s.setNotices i p).gained = s.gained := rfl
@[simp] theorem State.setNotices_cursors (i : Slot) (p : PendingSet) : (s.setNotices i p).cursors = s.cursors := rfl
@[simp] theorem State.setNotices_attnI (i : Slot) (p : PendingSet) : (s.setNotices i p).attnI = s.attnI := rfl
@[simp] theorem State.setNotices_attnS (i : Slot) (p : PendingSet) : (s.setNotices i p).attnS = s.attnS := rfl
@[simp] theorem State.setNotices_pending (i : Slot) (p : PendingSet) : (s.setNotices i p).pending = s.pending := rfl

/-! ## postGranted -/

@[simp] theorem State.postGranted_phase (i : Slot) : (s.postGranted i).phase = s.phase := rfl
@[simp] theorem State.postGranted_cause (i : Slot) : (s.postGranted i).cause = s.cause := rfl
@[simp] theorem State.postGranted_straps (i : Slot) : (s.postGranted i).straps = s.straps := rfl
@[simp] theorem State.postGranted_clients (i : Slot) : (s.postGranted i).clients = s.clients := rfl
@[simp] theorem State.postGranted_supervisor (i : Slot) : (s.postGranted i).supervisor = s.supervisor := rfl
@[simp] theorem State.postGranted_slots (i : Slot) : (s.postGranted i).slots = s.slots := rfl
@[simp] theorem State.postGranted_portI (i : Slot) : (s.postGranted i).portI = s.portI := rfl
@[simp] theorem State.postGranted_portS (i : Slot) : (s.postGranted i).portS = s.portS := rfl
@[simp] theorem State.postGranted_entries (i : Slot) : (s.postGranted i).entries = s.entries := rfl
@[simp] theorem State.postGranted_waitList (i : Slot) : (s.postGranted i).waitList = s.waitList := rfl
@[simp] theorem State.postGranted_fences (i : Slot) : (s.postGranted i).fences = s.fences := rfl
@[simp] theorem State.postGranted_tickRate (i : Slot) : (s.postGranted i).tickRate = s.tickRate := rfl
@[simp] theorem State.postGranted_tickPosition (i : Slot) : (s.postGranted i).tickPosition = s.tickPosition := rfl
@[simp] theorem State.postGranted_entryTicks (i : Slot) : (s.postGranted i).entryTicks = s.entryTicks := rfl
@[simp] theorem State.postGranted_clientTicks (i : Slot) : (s.postGranted i).clientTicks = s.clientTicks := rfl
@[simp] theorem State.postGranted_idlePlan (i : Slot) : (s.postGranted i).idlePlan = s.idlePlan := rfl
@[simp] theorem State.postGranted_effective (i : Slot) : (s.postGranted i).effective = s.effective := rfl
@[simp] theorem State.postGranted_lastSample (i : Slot) : (s.postGranted i).lastSample = s.lastSample := rfl
@[simp] theorem State.postGranted_samplePosition (i : Slot) :
    (s.postGranted i).samplePosition = s.samplePosition := rfl
@[simp] theorem State.postGranted_generators (i : Slot) : (s.postGranted i).generators = s.generators := rfl
@[simp] theorem State.postGranted_reference (i : Slot) : (s.postGranted i).reference = s.reference := rfl
@[simp] theorem State.postGranted_acquisition (i : Slot) : (s.postGranted i).acquisition = s.acquisition := rfl
@[simp] theorem State.postGranted_convQueue (i : Slot) : (s.postGranted i).convQueue = s.convQueue := rfl
@[simp] theorem State.postGranted_inFlight (i : Slot) : (s.postGranted i).inFlight = s.inFlight := rfl
@[simp] theorem State.postGranted_notices (i : Slot) :
    (s.postGranted i).notices = s.notices.set i { s.noticesOf i with granted := true } := rfl
@[simp] theorem State.postGranted_gained (i : Slot) : (s.postGranted i).gained = s.gained := rfl
@[simp] theorem State.postGranted_cursors (i : Slot) : (s.postGranted i).cursors = s.cursors := rfl
@[simp] theorem State.postGranted_attnI (i : Slot) : (s.postGranted i).attnI = s.attnI := rfl
@[simp] theorem State.postGranted_attnS (i : Slot) : (s.postGranted i).attnS = s.attnS := rfl
@[simp] theorem State.postGranted_pending (i : Slot) : (s.postGranted i).pending = s.pending := rfl

/-! ## postDue -/

@[simp] theorem State.postDue_phase (i : Slot) : (s.postDue i).phase = s.phase := rfl
@[simp] theorem State.postDue_cause (i : Slot) : (s.postDue i).cause = s.cause := rfl
@[simp] theorem State.postDue_straps (i : Slot) : (s.postDue i).straps = s.straps := rfl
@[simp] theorem State.postDue_clients (i : Slot) : (s.postDue i).clients = s.clients := rfl
@[simp] theorem State.postDue_supervisor (i : Slot) : (s.postDue i).supervisor = s.supervisor := rfl
@[simp] theorem State.postDue_slots (i : Slot) : (s.postDue i).slots = s.slots := rfl
@[simp] theorem State.postDue_portI (i : Slot) : (s.postDue i).portI = s.portI := rfl
@[simp] theorem State.postDue_portS (i : Slot) : (s.postDue i).portS = s.portS := rfl
@[simp] theorem State.postDue_entries (i : Slot) : (s.postDue i).entries = s.entries := rfl
@[simp] theorem State.postDue_waitList (i : Slot) : (s.postDue i).waitList = s.waitList := rfl
@[simp] theorem State.postDue_fences (i : Slot) : (s.postDue i).fences = s.fences := rfl
@[simp] theorem State.postDue_tickRate (i : Slot) : (s.postDue i).tickRate = s.tickRate := rfl
@[simp] theorem State.postDue_tickPosition (i : Slot) : (s.postDue i).tickPosition = s.tickPosition := rfl
@[simp] theorem State.postDue_entryTicks (i : Slot) : (s.postDue i).entryTicks = s.entryTicks := rfl
@[simp] theorem State.postDue_clientTicks (i : Slot) : (s.postDue i).clientTicks = s.clientTicks := rfl
@[simp] theorem State.postDue_idlePlan (i : Slot) : (s.postDue i).idlePlan = s.idlePlan := rfl
@[simp] theorem State.postDue_effective (i : Slot) : (s.postDue i).effective = s.effective := rfl
@[simp] theorem State.postDue_lastSample (i : Slot) : (s.postDue i).lastSample = s.lastSample := rfl
@[simp] theorem State.postDue_samplePosition (i : Slot) : (s.postDue i).samplePosition = s.samplePosition := rfl
@[simp] theorem State.postDue_generators (i : Slot) : (s.postDue i).generators = s.generators := rfl
@[simp] theorem State.postDue_reference (i : Slot) : (s.postDue i).reference = s.reference := rfl
@[simp] theorem State.postDue_acquisition (i : Slot) : (s.postDue i).acquisition = s.acquisition := rfl
@[simp] theorem State.postDue_convQueue (i : Slot) : (s.postDue i).convQueue = s.convQueue := rfl
@[simp] theorem State.postDue_inFlight (i : Slot) : (s.postDue i).inFlight = s.inFlight := rfl
@[simp] theorem State.postDue_notices (i : Slot) :
    (s.postDue i).notices = s.notices.set i { s.noticesOf i with due := true } := rfl
@[simp] theorem State.postDue_gained (i : Slot) : (s.postDue i).gained = s.gained := rfl
@[simp] theorem State.postDue_cursors (i : Slot) : (s.postDue i).cursors = s.cursors := rfl
@[simp] theorem State.postDue_attnI (i : Slot) : (s.postDue i).attnI = s.attnI := rfl
@[simp] theorem State.postDue_attnS (i : Slot) : (s.postDue i).attnS = s.attnS := rfl
@[simp] theorem State.postDue_pending (i : Slot) : (s.postDue i).pending = s.pending := rfl

/-! ## postEnded -/

@[simp] theorem State.postEnded_phase (i : Slot) (r : EndReason) : (s.postEnded i r).phase = s.phase := rfl
@[simp] theorem State.postEnded_cause (i : Slot) (r : EndReason) : (s.postEnded i r).cause = s.cause := rfl
@[simp] theorem State.postEnded_straps (i : Slot) (r : EndReason) : (s.postEnded i r).straps = s.straps := rfl
@[simp] theorem State.postEnded_clients (i : Slot) (r : EndReason) : (s.postEnded i r).clients = s.clients := rfl
@[simp] theorem State.postEnded_supervisor (i : Slot) (r : EndReason) :
    (s.postEnded i r).supervisor = s.supervisor := rfl
@[simp] theorem State.postEnded_slots (i : Slot) (r : EndReason) : (s.postEnded i r).slots = s.slots := rfl
@[simp] theorem State.postEnded_portI (i : Slot) (r : EndReason) : (s.postEnded i r).portI = s.portI := rfl
@[simp] theorem State.postEnded_portS (i : Slot) (r : EndReason) : (s.postEnded i r).portS = s.portS := rfl
@[simp] theorem State.postEnded_entries (i : Slot) (r : EndReason) : (s.postEnded i r).entries = s.entries := rfl
@[simp] theorem State.postEnded_waitList (i : Slot) (r : EndReason) : (s.postEnded i r).waitList = s.waitList := rfl
@[simp] theorem State.postEnded_fences (i : Slot) (r : EndReason) : (s.postEnded i r).fences = s.fences := rfl
@[simp] theorem State.postEnded_tickRate (i : Slot) (r : EndReason) : (s.postEnded i r).tickRate = s.tickRate := rfl
@[simp] theorem State.postEnded_tickPosition (i : Slot) (r : EndReason) :
    (s.postEnded i r).tickPosition = s.tickPosition := rfl
@[simp] theorem State.postEnded_entryTicks (i : Slot) (r : EndReason) :
    (s.postEnded i r).entryTicks = s.entryTicks := rfl
@[simp] theorem State.postEnded_clientTicks (i : Slot) (r : EndReason) :
    (s.postEnded i r).clientTicks = s.clientTicks := rfl
@[simp] theorem State.postEnded_idlePlan (i : Slot) (r : EndReason) : (s.postEnded i r).idlePlan = s.idlePlan := rfl
@[simp] theorem State.postEnded_effective (i : Slot) (r : EndReason) :
    (s.postEnded i r).effective = s.effective := rfl
@[simp] theorem State.postEnded_lastSample (i : Slot) (r : EndReason) :
    (s.postEnded i r).lastSample = s.lastSample := rfl
@[simp] theorem State.postEnded_samplePosition (i : Slot) (r : EndReason) :
    (s.postEnded i r).samplePosition = s.samplePosition := rfl
@[simp] theorem State.postEnded_generators (i : Slot) (r : EndReason) :
    (s.postEnded i r).generators = s.generators := rfl
@[simp] theorem State.postEnded_reference (i : Slot) (r : EndReason) :
    (s.postEnded i r).reference = s.reference := rfl
@[simp] theorem State.postEnded_acquisition (i : Slot) (r : EndReason) :
    (s.postEnded i r).acquisition = s.acquisition := rfl
@[simp] theorem State.postEnded_convQueue (i : Slot) (r : EndReason) :
    (s.postEnded i r).convQueue = s.convQueue := rfl
@[simp] theorem State.postEnded_inFlight (i : Slot) (r : EndReason) : (s.postEnded i r).inFlight = s.inFlight := rfl
@[simp] theorem State.postEnded_notices (i : Slot) (r : EndReason) :
    (s.postEnded i r).notices = s.notices.set i { s.noticesOf i with ended := some r } := rfl
@[simp] theorem State.postEnded_gained (i : Slot) (r : EndReason) : (s.postEnded i r).gained = s.gained := rfl
@[simp] theorem State.postEnded_cursors (i : Slot) (r : EndReason) : (s.postEnded i r).cursors = s.cursors := rfl
@[simp] theorem State.postEnded_attnI (i : Slot) (r : EndReason) : (s.postEnded i r).attnI = s.attnI := rfl
@[simp] theorem State.postEnded_attnS (i : Slot) (r : EndReason) : (s.postEnded i r).attnS = s.attnS := rfl
@[simp] theorem State.postEnded_pending (i : Slot) (r : EndReason) : (s.postEnded i r).pending = s.pending := rfl

/-! ## postConverted -/

@[simp] theorem State.postConverted_phase (i : Slot) : (s.postConverted i).phase = s.phase := rfl
@[simp] theorem State.postConverted_cause (i : Slot) : (s.postConverted i).cause = s.cause := rfl
@[simp] theorem State.postConverted_straps (i : Slot) : (s.postConverted i).straps = s.straps := rfl
@[simp] theorem State.postConverted_clients (i : Slot) : (s.postConverted i).clients = s.clients := rfl
@[simp] theorem State.postConverted_supervisor (i : Slot) : (s.postConverted i).supervisor = s.supervisor := rfl
@[simp] theorem State.postConverted_slots (i : Slot) : (s.postConverted i).slots = s.slots := rfl
@[simp] theorem State.postConverted_portI (i : Slot) : (s.postConverted i).portI = s.portI := rfl
@[simp] theorem State.postConverted_portS (i : Slot) : (s.postConverted i).portS = s.portS := rfl
@[simp] theorem State.postConverted_entries (i : Slot) : (s.postConverted i).entries = s.entries := rfl
@[simp] theorem State.postConverted_waitList (i : Slot) : (s.postConverted i).waitList = s.waitList := rfl
@[simp] theorem State.postConverted_fences (i : Slot) : (s.postConverted i).fences = s.fences := rfl
@[simp] theorem State.postConverted_tickRate (i : Slot) : (s.postConverted i).tickRate = s.tickRate := rfl
@[simp] theorem State.postConverted_tickPosition (i : Slot) : (s.postConverted i).tickPosition = s.tickPosition := rfl
@[simp] theorem State.postConverted_entryTicks (i : Slot) : (s.postConverted i).entryTicks = s.entryTicks := rfl
@[simp] theorem State.postConverted_clientTicks (i : Slot) : (s.postConverted i).clientTicks = s.clientTicks := rfl
@[simp] theorem State.postConverted_idlePlan (i : Slot) : (s.postConverted i).idlePlan = s.idlePlan := rfl
@[simp] theorem State.postConverted_effective (i : Slot) : (s.postConverted i).effective = s.effective := rfl
@[simp] theorem State.postConverted_lastSample (i : Slot) : (s.postConverted i).lastSample = s.lastSample := rfl
@[simp] theorem State.postConverted_samplePosition (i : Slot) :
    (s.postConverted i).samplePosition = s.samplePosition := rfl
@[simp] theorem State.postConverted_generators (i : Slot) : (s.postConverted i).generators = s.generators := rfl
@[simp] theorem State.postConverted_reference (i : Slot) : (s.postConverted i).reference = s.reference := rfl
@[simp] theorem State.postConverted_acquisition (i : Slot) : (s.postConverted i).acquisition = s.acquisition := rfl
@[simp] theorem State.postConverted_convQueue (i : Slot) : (s.postConverted i).convQueue = s.convQueue := rfl
@[simp] theorem State.postConverted_inFlight (i : Slot) : (s.postConverted i).inFlight = s.inFlight := rfl
@[simp] theorem State.postConverted_notices (i : Slot) :
    (s.postConverted i).notices = s.notices.set i { s.noticesOf i with converted := true } := rfl
@[simp] theorem State.postConverted_gained (i : Slot) : (s.postConverted i).gained = s.gained := rfl
@[simp] theorem State.postConverted_cursors (i : Slot) : (s.postConverted i).cursors = s.cursors := rfl
@[simp] theorem State.postConverted_attnI (i : Slot) : (s.postConverted i).attnI = s.attnI := rfl
@[simp] theorem State.postConverted_attnS (i : Slot) : (s.postConverted i).attnS = s.attnS := rfl
@[simp] theorem State.postConverted_pending (i : Slot) : (s.postConverted i).pending = s.pending := rfl

/-! ## postPulseApplied -/

@[simp] theorem State.postPulseApplied_phase (i : Slot) : (s.postPulseApplied i).phase = s.phase := rfl
@[simp] theorem State.postPulseApplied_cause (i : Slot) : (s.postPulseApplied i).cause = s.cause := rfl
@[simp] theorem State.postPulseApplied_straps (i : Slot) : (s.postPulseApplied i).straps = s.straps := rfl
@[simp] theorem State.postPulseApplied_clients (i : Slot) : (s.postPulseApplied i).clients = s.clients := rfl
@[simp] theorem State.postPulseApplied_supervisor (i : Slot) : (s.postPulseApplied i).supervisor = s.supervisor := rfl
@[simp] theorem State.postPulseApplied_slots (i : Slot) : (s.postPulseApplied i).slots = s.slots := rfl
@[simp] theorem State.postPulseApplied_portI (i : Slot) : (s.postPulseApplied i).portI = s.portI := rfl
@[simp] theorem State.postPulseApplied_portS (i : Slot) : (s.postPulseApplied i).portS = s.portS := rfl
@[simp] theorem State.postPulseApplied_entries (i : Slot) : (s.postPulseApplied i).entries = s.entries := rfl
@[simp] theorem State.postPulseApplied_waitList (i : Slot) : (s.postPulseApplied i).waitList = s.waitList := rfl
@[simp] theorem State.postPulseApplied_fences (i : Slot) : (s.postPulseApplied i).fences = s.fences := rfl
@[simp] theorem State.postPulseApplied_tickRate (i : Slot) : (s.postPulseApplied i).tickRate = s.tickRate := rfl
@[simp] theorem State.postPulseApplied_tickPosition (i : Slot) :
    (s.postPulseApplied i).tickPosition = s.tickPosition := rfl
@[simp] theorem State.postPulseApplied_entryTicks (i : Slot) : (s.postPulseApplied i).entryTicks = s.entryTicks := rfl
@[simp] theorem State.postPulseApplied_clientTicks (i : Slot) :
    (s.postPulseApplied i).clientTicks = s.clientTicks := rfl
@[simp] theorem State.postPulseApplied_idlePlan (i : Slot) : (s.postPulseApplied i).idlePlan = s.idlePlan := rfl
@[simp] theorem State.postPulseApplied_effective (i : Slot) : (s.postPulseApplied i).effective = s.effective := rfl
@[simp] theorem State.postPulseApplied_lastSample (i : Slot) : (s.postPulseApplied i).lastSample = s.lastSample := rfl
@[simp] theorem State.postPulseApplied_samplePosition (i : Slot) :
    (s.postPulseApplied i).samplePosition = s.samplePosition := rfl
@[simp] theorem State.postPulseApplied_generators (i : Slot) : (s.postPulseApplied i).generators = s.generators := rfl
@[simp] theorem State.postPulseApplied_reference (i : Slot) : (s.postPulseApplied i).reference = s.reference := rfl
@[simp] theorem State.postPulseApplied_acquisition (i : Slot) :
    (s.postPulseApplied i).acquisition = s.acquisition := rfl
@[simp] theorem State.postPulseApplied_convQueue (i : Slot) : (s.postPulseApplied i).convQueue = s.convQueue := rfl
@[simp] theorem State.postPulseApplied_inFlight (i : Slot) : (s.postPulseApplied i).inFlight = s.inFlight := rfl
@[simp] theorem State.postPulseApplied_notices (i : Slot) :
    (s.postPulseApplied i).notices = s.notices.set i { s.noticesOf i with pulseApplied := true } := rfl
@[simp] theorem State.postPulseApplied_gained (i : Slot) : (s.postPulseApplied i).gained = s.gained := rfl
@[simp] theorem State.postPulseApplied_cursors (i : Slot) : (s.postPulseApplied i).cursors = s.cursors := rfl
@[simp] theorem State.postPulseApplied_attnI (i : Slot) : (s.postPulseApplied i).attnI = s.attnI := rfl
@[simp] theorem State.postPulseApplied_attnS (i : Slot) : (s.postPulseApplied i).attnS = s.attnS := rfl
@[simp] theorem State.postPulseApplied_pending (i : Slot) : (s.postPulseApplied i).pending = s.pending := rfl

/-! ## discardNotices -/

@[simp] theorem State.discardNotices_phase (i : Slot) : (s.discardNotices i).phase = s.phase := rfl
@[simp] theorem State.discardNotices_cause (i : Slot) : (s.discardNotices i).cause = s.cause := rfl
@[simp] theorem State.discardNotices_straps (i : Slot) : (s.discardNotices i).straps = s.straps := rfl
@[simp] theorem State.discardNotices_clients (i : Slot) : (s.discardNotices i).clients = s.clients := rfl
@[simp] theorem State.discardNotices_supervisor (i : Slot) : (s.discardNotices i).supervisor = s.supervisor := rfl
@[simp] theorem State.discardNotices_slots (i : Slot) : (s.discardNotices i).slots = s.slots := rfl
@[simp] theorem State.discardNotices_portI (i : Slot) : (s.discardNotices i).portI = s.portI := rfl
@[simp] theorem State.discardNotices_portS (i : Slot) : (s.discardNotices i).portS = s.portS := rfl
@[simp] theorem State.discardNotices_entries (i : Slot) : (s.discardNotices i).entries = s.entries := rfl
@[simp] theorem State.discardNotices_waitList (i : Slot) : (s.discardNotices i).waitList = s.waitList := rfl
@[simp] theorem State.discardNotices_fences (i : Slot) : (s.discardNotices i).fences = s.fences := rfl
@[simp] theorem State.discardNotices_tickRate (i : Slot) : (s.discardNotices i).tickRate = s.tickRate := rfl
@[simp] theorem State.discardNotices_tickPosition (i : Slot) :
    (s.discardNotices i).tickPosition = s.tickPosition := rfl
@[simp] theorem State.discardNotices_entryTicks (i : Slot) : (s.discardNotices i).entryTicks = s.entryTicks := rfl
@[simp] theorem State.discardNotices_clientTicks (i : Slot) : (s.discardNotices i).clientTicks = s.clientTicks := rfl
@[simp] theorem State.discardNotices_idlePlan (i : Slot) : (s.discardNotices i).idlePlan = s.idlePlan := rfl
@[simp] theorem State.discardNotices_effective (i : Slot) : (s.discardNotices i).effective = s.effective := rfl
@[simp] theorem State.discardNotices_lastSample (i : Slot) : (s.discardNotices i).lastSample = s.lastSample := rfl
@[simp] theorem State.discardNotices_samplePosition (i : Slot) :
    (s.discardNotices i).samplePosition = s.samplePosition := rfl
@[simp] theorem State.discardNotices_generators (i : Slot) : (s.discardNotices i).generators = s.generators := rfl
@[simp] theorem State.discardNotices_reference (i : Slot) : (s.discardNotices i).reference = s.reference := rfl
@[simp] theorem State.discardNotices_acquisition (i : Slot) : (s.discardNotices i).acquisition = s.acquisition := rfl
@[simp] theorem State.discardNotices_convQueue (i : Slot) : (s.discardNotices i).convQueue = s.convQueue := rfl
@[simp] theorem State.discardNotices_inFlight (i : Slot) : (s.discardNotices i).inFlight = s.inFlight := rfl
@[simp] theorem State.discardNotices_notices (i : Slot) :
    (s.discardNotices i).notices = s.notices.set i PendingSet.empty := rfl
@[simp] theorem State.discardNotices_gained (i : Slot) : (s.discardNotices i).gained = s.gained := rfl
@[simp] theorem State.discardNotices_cursors (i : Slot) : (s.discardNotices i).cursors = s.cursors := rfl
@[simp] theorem State.discardNotices_attnI (i : Slot) : (s.discardNotices i).attnI = s.attnI := rfl
@[simp] theorem State.discardNotices_attnS (i : Slot) : (s.discardNotices i).attnS = s.attnS := rfl
@[simp] theorem State.discardNotices_pending (i : Slot) : (s.discardNotices i).pending = s.pending := rfl

/-! ## settleAttention -/

@[simp] theorem State.settleAttention_phase : (s.settleAttention).phase = s.phase := rfl
@[simp] theorem State.settleAttention_cause : (s.settleAttention).cause = s.cause := rfl
@[simp] theorem State.settleAttention_straps : (s.settleAttention).straps = s.straps := rfl
@[simp] theorem State.settleAttention_clients : (s.settleAttention).clients = s.clients := rfl
@[simp] theorem State.settleAttention_supervisor : (s.settleAttention).supervisor = s.supervisor := rfl
@[simp] theorem State.settleAttention_slots : (s.settleAttention).slots = s.slots := rfl
@[simp] theorem State.settleAttention_portI : (s.settleAttention).portI = s.portI := rfl
@[simp] theorem State.settleAttention_portS : (s.settleAttention).portS = s.portS := rfl
@[simp] theorem State.settleAttention_entries : (s.settleAttention).entries = s.entries := rfl
@[simp] theorem State.settleAttention_waitList : (s.settleAttention).waitList = s.waitList := rfl
@[simp] theorem State.settleAttention_fences : (s.settleAttention).fences = s.fences := rfl
@[simp] theorem State.settleAttention_tickRate : (s.settleAttention).tickRate = s.tickRate := rfl
@[simp] theorem State.settleAttention_tickPosition : (s.settleAttention).tickPosition = s.tickPosition := rfl
@[simp] theorem State.settleAttention_entryTicks : (s.settleAttention).entryTicks = s.entryTicks := rfl
@[simp] theorem State.settleAttention_clientTicks : (s.settleAttention).clientTicks = s.clientTicks := rfl
@[simp] theorem State.settleAttention_idlePlan : (s.settleAttention).idlePlan = s.idlePlan := rfl
@[simp] theorem State.settleAttention_effective : (s.settleAttention).effective = s.effective := rfl
@[simp] theorem State.settleAttention_lastSample : (s.settleAttention).lastSample = s.lastSample := rfl
@[simp] theorem State.settleAttention_samplePosition : (s.settleAttention).samplePosition = s.samplePosition := rfl
@[simp] theorem State.settleAttention_generators : (s.settleAttention).generators = s.generators := rfl
@[simp] theorem State.settleAttention_reference : (s.settleAttention).reference = s.reference := rfl
@[simp] theorem State.settleAttention_acquisition : (s.settleAttention).acquisition = s.acquisition := rfl
@[simp] theorem State.settleAttention_convQueue : (s.settleAttention).convQueue = s.convQueue := rfl
@[simp] theorem State.settleAttention_inFlight : (s.settleAttention).inFlight = s.inFlight := rfl
@[simp] theorem State.settleAttention_notices : (s.settleAttention).notices = s.notices := rfl
@[simp] theorem State.settleAttention_gained : (s.settleAttention).gained = s.gained := rfl
@[simp] theorem State.settleAttention_cursors : (s.settleAttention).cursors = s.cursors := rfl
@[simp] theorem State.settleAttention_pending : (s.settleAttention).pending = s.pending := rfl

/-! ## emptySlot -/

@[simp] theorem State.emptySlot_phase (c : Client) : (s.emptySlot c).phase = s.phase := rfl
@[simp] theorem State.emptySlot_cause (c : Client) : (s.emptySlot c).cause = s.cause := rfl
@[simp] theorem State.emptySlot_straps (c : Client) : (s.emptySlot c).straps = s.straps := rfl
@[simp] theorem State.emptySlot_clients (c : Client) : (s.emptySlot c).clients = s.clients := rfl
@[simp] theorem State.emptySlot_supervisor (c : Client) : (s.emptySlot c).supervisor = s.supervisor := rfl
@[simp] theorem State.emptySlot_slots (c : Client) :
    (s.emptySlot c).slots = s.slots.set c ⟨.none, false, false⟩ := rfl
@[simp] theorem State.emptySlot_portI (c : Client) : (s.emptySlot c).portI = s.portI.afterEmptying c := rfl
@[simp] theorem State.emptySlot_portS (c : Client) : (s.emptySlot c).portS = s.portS.afterEmptying c := rfl
@[simp] theorem State.emptySlot_entries (c : Client) : (s.emptySlot c).entries = s.entries := rfl
@[simp] theorem State.emptySlot_waitList (c : Client) : (s.emptySlot c).waitList = s.waitList := rfl
@[simp] theorem State.emptySlot_fences (c : Client) : (s.emptySlot c).fences = s.fences := rfl
@[simp] theorem State.emptySlot_tickRate (c : Client) : (s.emptySlot c).tickRate = s.tickRate := rfl
@[simp] theorem State.emptySlot_tickPosition (c : Client) : (s.emptySlot c).tickPosition = s.tickPosition := rfl
@[simp] theorem State.emptySlot_entryTicks (c : Client) : (s.emptySlot c).entryTicks = s.entryTicks := rfl
@[simp] theorem State.emptySlot_clientTicks (c : Client) : (s.emptySlot c).clientTicks = s.clientTicks := rfl
@[simp] theorem State.emptySlot_idlePlan (c : Client) : (s.emptySlot c).idlePlan = s.idlePlan := rfl
@[simp] theorem State.emptySlot_effective (c : Client) : (s.emptySlot c).effective = s.effective := rfl
@[simp] theorem State.emptySlot_lastSample (c : Client) : (s.emptySlot c).lastSample = s.lastSample := rfl
@[simp] theorem State.emptySlot_samplePosition (c : Client) : (s.emptySlot c).samplePosition = s.samplePosition := rfl
@[simp] theorem State.emptySlot_generators (c : Client) : (s.emptySlot c).generators = s.generators := rfl
@[simp] theorem State.emptySlot_reference (c : Client) : (s.emptySlot c).reference = s.reference := rfl
@[simp] theorem State.emptySlot_acquisition (c : Client) : (s.emptySlot c).acquisition = s.acquisition := rfl
@[simp] theorem State.emptySlot_convQueue (c : Client) : (s.emptySlot c).convQueue = s.convQueue := rfl
@[simp] theorem State.emptySlot_inFlight (c : Client) : (s.emptySlot c).inFlight = s.inFlight := rfl
@[simp] theorem State.emptySlot_notices (c : Client) : (s.emptySlot c).notices = s.notices := rfl
@[simp] theorem State.emptySlot_gained (c : Client) : (s.emptySlot c).gained = s.gained := rfl
@[simp] theorem State.emptySlot_cursors (c : Client) : (s.emptySlot c).cursors = s.cursors := rfl
@[simp] theorem State.emptySlot_attnI (c : Client) : (s.emptySlot c).attnI = s.attnI := rfl
@[simp] theorem State.emptySlot_attnS (c : Client) : (s.emptySlot c).attnS = s.attnS := rfl
@[simp] theorem State.emptySlot_pending (c : Client) : (s.emptySlot c).pending = s.pending := rfl

/-! ## configureLines -/

@[simp] theorem State.configureLines_phase (ps : LineConfigs) : (s.configureLines ps).phase = s.phase := rfl
@[simp] theorem State.configureLines_cause (ps : LineConfigs) : (s.configureLines ps).cause = s.cause := rfl
@[simp] theorem State.configureLines_straps (ps : LineConfigs) : (s.configureLines ps).straps = s.straps := rfl
@[simp] theorem State.configureLines_clients (ps : LineConfigs) : (s.configureLines ps).clients = s.clients := rfl
@[simp] theorem State.configureLines_supervisor (ps : LineConfigs) :
    (s.configureLines ps).supervisor = s.supervisor := rfl
@[simp] theorem State.configureLines_slots (ps : LineConfigs) : (s.configureLines ps).slots = s.slots := rfl
@[simp] theorem State.configureLines_portI (ps : LineConfigs) : (s.configureLines ps).portI = s.portI := rfl
@[simp] theorem State.configureLines_portS (ps : LineConfigs) : (s.configureLines ps).portS = s.portS := rfl
@[simp] theorem State.configureLines_entries (ps : LineConfigs) : (s.configureLines ps).entries = s.entries := rfl
@[simp] theorem State.configureLines_waitList (ps : LineConfigs) : (s.configureLines ps).waitList = s.waitList := rfl
@[simp] theorem State.configureLines_fences (ps : LineConfigs) : (s.configureLines ps).fences = s.fences := rfl
@[simp] theorem State.configureLines_tickRate (ps : LineConfigs) : (s.configureLines ps).tickRate = s.tickRate := rfl
@[simp] theorem State.configureLines_tickPosition (ps : LineConfigs) :
    (s.configureLines ps).tickPosition = s.tickPosition := rfl
@[simp] theorem State.configureLines_entryTicks (ps : LineConfigs) :
    (s.configureLines ps).entryTicks = s.entryTicks := rfl
@[simp] theorem State.configureLines_clientTicks (ps : LineConfigs) :
    (s.configureLines ps).clientTicks = s.clientTicks := rfl
@[simp] theorem State.configureLines_idlePlan (ps : LineConfigs) : (s.configureLines ps).idlePlan = s.idlePlan := rfl
@[simp] theorem State.configureLines_effective (ps : LineConfigs) :
    (s.configureLines ps).effective = s.effectiveAfter ps := rfl
@[simp] theorem State.configureLines_lastSample (ps : LineConfigs) :
    (s.configureLines ps).lastSample = s.lastSample := rfl
@[simp] theorem State.configureLines_samplePosition (ps : LineConfigs) :
    (s.configureLines ps).samplePosition = s.samplePosition := rfl
@[simp] theorem State.configureLines_generators (ps : LineConfigs) :
    (s.configureLines ps).generators = s.generators := rfl
@[simp] theorem State.configureLines_reference (ps : LineConfigs) :
    (s.configureLines ps).reference = s.reference := rfl
@[simp] theorem State.configureLines_acquisition (ps : LineConfigs) :
    (s.configureLines ps).acquisition = s.acquisition := rfl
@[simp] theorem State.configureLines_convQueue (ps : LineConfigs) :
    (s.configureLines ps).convQueue = s.convQueue := rfl
@[simp] theorem State.configureLines_inFlight (ps : LineConfigs) :
    (s.configureLines ps).inFlight = s.inFlight.map (InFlight.afterReports s.effective (s.effectiveAfter ps)) := rfl
@[simp] theorem State.configureLines_notices (ps : LineConfigs) : (s.configureLines ps).notices = s.notices := rfl
@[simp] theorem State.configureLines_gained (ps : LineConfigs) : (s.configureLines ps).gained = s.gained := rfl
@[simp] theorem State.configureLines_cursors (ps : LineConfigs) : (s.configureLines ps).cursors = s.cursors := rfl
@[simp] theorem State.configureLines_attnI (ps : LineConfigs) : (s.configureLines ps).attnI = s.attnI := rfl
@[simp] theorem State.configureLines_attnS (ps : LineConfigs) : (s.configureLines ps).attnS = s.attnS := rfl
@[simp] theorem State.configureLines_pending (ps : LineConfigs) : (s.configureLines ps).pending = s.pending := rfl

/-! ## startGenerators -/

@[simp] theorem State.startGenerators_phase (rs : List (GenIx × Running)) :
    (s.startGenerators rs).phase = s.phase := rfl
@[simp] theorem State.startGenerators_cause (rs : List (GenIx × Running)) :
    (s.startGenerators rs).cause = s.cause := rfl
@[simp] theorem State.startGenerators_straps (rs : List (GenIx × Running)) :
    (s.startGenerators rs).straps = s.straps := rfl
@[simp] theorem State.startGenerators_clients (rs : List (GenIx × Running)) :
    (s.startGenerators rs).clients = s.clients := rfl
@[simp] theorem State.startGenerators_supervisor (rs : List (GenIx × Running)) :
    (s.startGenerators rs).supervisor = s.supervisor := rfl
@[simp] theorem State.startGenerators_slots (rs : List (GenIx × Running)) :
    (s.startGenerators rs).slots = s.slots := rfl
@[simp] theorem State.startGenerators_portI (rs : List (GenIx × Running)) :
    (s.startGenerators rs).portI = s.portI := rfl
@[simp] theorem State.startGenerators_portS (rs : List (GenIx × Running)) :
    (s.startGenerators rs).portS = s.portS := rfl
@[simp] theorem State.startGenerators_entries (rs : List (GenIx × Running)) :
    (s.startGenerators rs).entries = s.entries := rfl
@[simp] theorem State.startGenerators_waitList (rs : List (GenIx × Running)) :
    (s.startGenerators rs).waitList = s.waitList := rfl
@[simp] theorem State.startGenerators_fences (rs : List (GenIx × Running)) :
    (s.startGenerators rs).fences = s.fences := rfl
@[simp] theorem State.startGenerators_tickRate (rs : List (GenIx × Running)) :
    (s.startGenerators rs).tickRate = s.tickRate := rfl
@[simp] theorem State.startGenerators_tickPosition (rs : List (GenIx × Running)) :
    (s.startGenerators rs).tickPosition = s.tickPosition := rfl
@[simp] theorem State.startGenerators_entryTicks (rs : List (GenIx × Running)) :
    (s.startGenerators rs).entryTicks = s.entryTicks := rfl
@[simp] theorem State.startGenerators_clientTicks (rs : List (GenIx × Running)) :
    (s.startGenerators rs).clientTicks = s.clientTicks := rfl
@[simp] theorem State.startGenerators_idlePlan (rs : List (GenIx × Running)) :
    (s.startGenerators rs).idlePlan = s.idlePlan := rfl
@[simp] theorem State.startGenerators_effective (rs : List (GenIx × Running)) :
    (s.startGenerators rs).effective = s.effective := rfl
@[simp] theorem State.startGenerators_lastSample (rs : List (GenIx × Running)) :
    (s.startGenerators rs).lastSample = s.lastSample := rfl
@[simp] theorem State.startGenerators_samplePosition (rs : List (GenIx × Running)) :
    (s.startGenerators rs).samplePosition = s.samplePosition := rfl
@[simp] theorem State.startGenerators_reference (rs : List (GenIx × Running)) :
    (s.startGenerators rs).reference = s.reference := rfl
@[simp] theorem State.startGenerators_acquisition (rs : List (GenIx × Running)) :
    (s.startGenerators rs).acquisition = s.acquisition := rfl
@[simp] theorem State.startGenerators_convQueue (rs : List (GenIx × Running)) :
    (s.startGenerators rs).convQueue = s.convQueue := rfl
@[simp] theorem State.startGenerators_inFlight (rs : List (GenIx × Running)) :
    (s.startGenerators rs).inFlight = s.inFlight := rfl
@[simp] theorem State.startGenerators_notices (rs : List (GenIx × Running)) :
    (s.startGenerators rs).notices = s.notices := rfl
@[simp] theorem State.startGenerators_gained (rs : List (GenIx × Running)) :
    (s.startGenerators rs).gained = s.gained := rfl
@[simp] theorem State.startGenerators_cursors (rs : List (GenIx × Running)) :
    (s.startGenerators rs).cursors = s.cursors := rfl
@[simp] theorem State.startGenerators_attnI (rs : List (GenIx × Running)) :
    (s.startGenerators rs).attnI = s.attnI := rfl
@[simp] theorem State.startGenerators_attnS (rs : List (GenIx × Running)) :
    (s.startGenerators rs).attnS = s.attnS := rfl
@[simp] theorem State.startGenerators_pending (rs : List (GenIx × Running)) :
    (s.startGenerators rs).pending = s.pending := rfl

/-! ## stopGenerators -/

@[simp] theorem State.stopGenerators_phase (i : Slot) : (s.stopGenerators i).phase = s.phase := rfl
@[simp] theorem State.stopGenerators_cause (i : Slot) : (s.stopGenerators i).cause = s.cause := rfl
@[simp] theorem State.stopGenerators_straps (i : Slot) : (s.stopGenerators i).straps = s.straps := rfl
@[simp] theorem State.stopGenerators_clients (i : Slot) : (s.stopGenerators i).clients = s.clients := rfl
@[simp] theorem State.stopGenerators_supervisor (i : Slot) : (s.stopGenerators i).supervisor = s.supervisor := rfl
@[simp] theorem State.stopGenerators_slots (i : Slot) : (s.stopGenerators i).slots = s.slots := rfl
@[simp] theorem State.stopGenerators_portI (i : Slot) : (s.stopGenerators i).portI = s.portI := rfl
@[simp] theorem State.stopGenerators_portS (i : Slot) : (s.stopGenerators i).portS = s.portS := rfl
@[simp] theorem State.stopGenerators_entries (i : Slot) : (s.stopGenerators i).entries = s.entries := rfl
@[simp] theorem State.stopGenerators_waitList (i : Slot) : (s.stopGenerators i).waitList = s.waitList := rfl
@[simp] theorem State.stopGenerators_fences (i : Slot) : (s.stopGenerators i).fences = s.fences := rfl
@[simp] theorem State.stopGenerators_tickRate (i : Slot) : (s.stopGenerators i).tickRate = s.tickRate := rfl
@[simp] theorem State.stopGenerators_tickPosition (i : Slot) :
    (s.stopGenerators i).tickPosition = s.tickPosition := rfl
@[simp] theorem State.stopGenerators_entryTicks (i : Slot) : (s.stopGenerators i).entryTicks = s.entryTicks := rfl
@[simp] theorem State.stopGenerators_clientTicks (i : Slot) : (s.stopGenerators i).clientTicks = s.clientTicks := rfl
@[simp] theorem State.stopGenerators_idlePlan (i : Slot) : (s.stopGenerators i).idlePlan = s.idlePlan := rfl
@[simp] theorem State.stopGenerators_effective (i : Slot) : (s.stopGenerators i).effective = s.effective := rfl
@[simp] theorem State.stopGenerators_lastSample (i : Slot) : (s.stopGenerators i).lastSample = s.lastSample := rfl
@[simp] theorem State.stopGenerators_samplePosition (i : Slot) :
    (s.stopGenerators i).samplePosition = s.samplePosition := rfl
@[simp] theorem State.stopGenerators_reference (i : Slot) : (s.stopGenerators i).reference = s.reference := rfl
@[simp] theorem State.stopGenerators_acquisition (i : Slot) : (s.stopGenerators i).acquisition = s.acquisition := rfl
@[simp] theorem State.stopGenerators_convQueue (i : Slot) : (s.stopGenerators i).convQueue = s.convQueue := rfl
@[simp] theorem State.stopGenerators_inFlight (i : Slot) : (s.stopGenerators i).inFlight = s.inFlight := rfl
@[simp] theorem State.stopGenerators_notices (i : Slot) : (s.stopGenerators i).notices = s.notices := rfl
@[simp] theorem State.stopGenerators_gained (i : Slot) : (s.stopGenerators i).gained = s.gained := rfl
@[simp] theorem State.stopGenerators_cursors (i : Slot) : (s.stopGenerators i).cursors = s.cursors := rfl
@[simp] theorem State.stopGenerators_attnI (i : Slot) : (s.stopGenerators i).attnI = s.attnI := rfl
@[simp] theorem State.stopGenerators_attnS (i : Slot) : (s.stopGenerators i).attnS = s.attnS := rfl
@[simp] theorem State.stopGenerators_pending (i : Slot) : (s.stopGenerators i).pending = s.pending := rfl

/-! ## mapGroup -/

@[simp] theorem State.mapGroup_phase (i : Slot) (f : Running → Running) : (s.mapGroup i f).phase = s.phase := rfl
@[simp] theorem State.mapGroup_cause (i : Slot) (f : Running → Running) : (s.mapGroup i f).cause = s.cause := rfl
@[simp] theorem State.mapGroup_straps (i : Slot) (f : Running → Running) : (s.mapGroup i f).straps = s.straps := rfl
@[simp] theorem State.mapGroup_clients (i : Slot) (f : Running → Running) :
    (s.mapGroup i f).clients = s.clients := rfl
@[simp] theorem State.mapGroup_supervisor (i : Slot) (f : Running → Running) :
    (s.mapGroup i f).supervisor = s.supervisor := rfl
@[simp] theorem State.mapGroup_slots (i : Slot) (f : Running → Running) : (s.mapGroup i f).slots = s.slots := rfl
@[simp] theorem State.mapGroup_portI (i : Slot) (f : Running → Running) : (s.mapGroup i f).portI = s.portI := rfl
@[simp] theorem State.mapGroup_portS (i : Slot) (f : Running → Running) : (s.mapGroup i f).portS = s.portS := rfl
@[simp] theorem State.mapGroup_entries (i : Slot) (f : Running → Running) :
    (s.mapGroup i f).entries = s.entries := rfl
@[simp] theorem State.mapGroup_waitList (i : Slot) (f : Running → Running) :
    (s.mapGroup i f).waitList = s.waitList := rfl
@[simp] theorem State.mapGroup_fences (i : Slot) (f : Running → Running) : (s.mapGroup i f).fences = s.fences := rfl
@[simp] theorem State.mapGroup_tickRate (i : Slot) (f : Running → Running) :
    (s.mapGroup i f).tickRate = s.tickRate := rfl
@[simp] theorem State.mapGroup_tickPosition (i : Slot) (f : Running → Running) :
    (s.mapGroup i f).tickPosition = s.tickPosition := rfl
@[simp] theorem State.mapGroup_entryTicks (i : Slot) (f : Running → Running) :
    (s.mapGroup i f).entryTicks = s.entryTicks := rfl
@[simp] theorem State.mapGroup_clientTicks (i : Slot) (f : Running → Running) :
    (s.mapGroup i f).clientTicks = s.clientTicks := rfl
@[simp] theorem State.mapGroup_idlePlan (i : Slot) (f : Running → Running) :
    (s.mapGroup i f).idlePlan = s.idlePlan := rfl
@[simp] theorem State.mapGroup_effective (i : Slot) (f : Running → Running) :
    (s.mapGroup i f).effective = s.effective := rfl
@[simp] theorem State.mapGroup_lastSample (i : Slot) (f : Running → Running) :
    (s.mapGroup i f).lastSample = s.lastSample := rfl
@[simp] theorem State.mapGroup_samplePosition (i : Slot) (f : Running → Running) :
    (s.mapGroup i f).samplePosition = s.samplePosition := rfl
@[simp] theorem State.mapGroup_reference (i : Slot) (f : Running → Running) :
    (s.mapGroup i f).reference = s.reference := rfl
@[simp] theorem State.mapGroup_acquisition (i : Slot) (f : Running → Running) :
    (s.mapGroup i f).acquisition = s.acquisition := rfl
@[simp] theorem State.mapGroup_convQueue (i : Slot) (f : Running → Running) :
    (s.mapGroup i f).convQueue = s.convQueue := rfl
@[simp] theorem State.mapGroup_inFlight (i : Slot) (f : Running → Running) :
    (s.mapGroup i f).inFlight = s.inFlight := rfl
@[simp] theorem State.mapGroup_notices (i : Slot) (f : Running → Running) :
    (s.mapGroup i f).notices = s.notices := rfl
@[simp] theorem State.mapGroup_gained (i : Slot) (f : Running → Running) : (s.mapGroup i f).gained = s.gained := rfl
@[simp] theorem State.mapGroup_cursors (i : Slot) (f : Running → Running) :
    (s.mapGroup i f).cursors = s.cursors := rfl
@[simp] theorem State.mapGroup_attnI (i : Slot) (f : Running → Running) : (s.mapGroup i f).attnI = s.attnI := rfl
@[simp] theorem State.mapGroup_attnS (i : Slot) (f : Running → Running) : (s.mapGroup i f).attnS = s.attnS := rfl
@[simp] theorem State.mapGroup_pending (i : Slot) (f : Running → Running) :
    (s.mapGroup i f).pending = s.pending := rfl

/-! ## leaveWaitList -/

@[simp] theorem State.leaveWaitList_phase (i : Slot) : (s.leaveWaitList i).phase = s.phase := rfl
@[simp] theorem State.leaveWaitList_cause (i : Slot) : (s.leaveWaitList i).cause = s.cause := rfl
@[simp] theorem State.leaveWaitList_straps (i : Slot) : (s.leaveWaitList i).straps = s.straps := rfl
@[simp] theorem State.leaveWaitList_clients (i : Slot) : (s.leaveWaitList i).clients = s.clients := rfl
@[simp] theorem State.leaveWaitList_supervisor (i : Slot) : (s.leaveWaitList i).supervisor = s.supervisor := rfl
@[simp] theorem State.leaveWaitList_slots (i : Slot) : (s.leaveWaitList i).slots = s.slots := rfl
@[simp] theorem State.leaveWaitList_portI (i : Slot) : (s.leaveWaitList i).portI = s.portI := rfl
@[simp] theorem State.leaveWaitList_portS (i : Slot) : (s.leaveWaitList i).portS = s.portS := rfl
@[simp] theorem State.leaveWaitList_entries (i : Slot) : (s.leaveWaitList i).entries = s.entries := rfl
@[simp] theorem State.leaveWaitList_waitList (i : Slot) :
    (s.leaveWaitList i).waitList = s.waitList.filter fun j => j ≠ i := rfl
@[simp] theorem State.leaveWaitList_fences (i : Slot) : (s.leaveWaitList i).fences = s.fences := rfl
@[simp] theorem State.leaveWaitList_tickRate (i : Slot) : (s.leaveWaitList i).tickRate = s.tickRate := rfl
@[simp] theorem State.leaveWaitList_tickPosition (i : Slot) : (s.leaveWaitList i).tickPosition = s.tickPosition := rfl
@[simp] theorem State.leaveWaitList_entryTicks (i : Slot) : (s.leaveWaitList i).entryTicks = s.entryTicks := rfl
@[simp] theorem State.leaveWaitList_clientTicks (i : Slot) : (s.leaveWaitList i).clientTicks = s.clientTicks := rfl
@[simp] theorem State.leaveWaitList_idlePlan (i : Slot) : (s.leaveWaitList i).idlePlan = s.idlePlan := rfl
@[simp] theorem State.leaveWaitList_effective (i : Slot) : (s.leaveWaitList i).effective = s.effective := rfl
@[simp] theorem State.leaveWaitList_lastSample (i : Slot) : (s.leaveWaitList i).lastSample = s.lastSample := rfl
@[simp] theorem State.leaveWaitList_samplePosition (i : Slot) :
    (s.leaveWaitList i).samplePosition = s.samplePosition := rfl
@[simp] theorem State.leaveWaitList_generators (i : Slot) : (s.leaveWaitList i).generators = s.generators := rfl
@[simp] theorem State.leaveWaitList_reference (i : Slot) : (s.leaveWaitList i).reference = s.reference := rfl
@[simp] theorem State.leaveWaitList_acquisition (i : Slot) : (s.leaveWaitList i).acquisition = s.acquisition := rfl
@[simp] theorem State.leaveWaitList_convQueue (i : Slot) : (s.leaveWaitList i).convQueue = s.convQueue := rfl
@[simp] theorem State.leaveWaitList_inFlight (i : Slot) : (s.leaveWaitList i).inFlight = s.inFlight := rfl
@[simp] theorem State.leaveWaitList_notices (i : Slot) : (s.leaveWaitList i).notices = s.notices := rfl
@[simp] theorem State.leaveWaitList_gained (i : Slot) : (s.leaveWaitList i).gained = s.gained := rfl
@[simp] theorem State.leaveWaitList_cursors (i : Slot) : (s.leaveWaitList i).cursors = s.cursors := rfl
@[simp] theorem State.leaveWaitList_attnI (i : Slot) : (s.leaveWaitList i).attnI = s.attnI := rfl
@[simp] theorem State.leaveWaitList_attnS (i : Slot) : (s.leaveWaitList i).attnS = s.attnS := rfl
@[simp] theorem State.leaveWaitList_pending (i : Slot) : (s.leaveWaitList i).pending = s.pending := rfl

/-! ## emitTick -/

@[simp] theorem State.emitTick_phase : (s.emitTick).phase = s.phase := rfl
@[simp] theorem State.emitTick_cause : (s.emitTick).cause = s.cause := rfl
@[simp] theorem State.emitTick_straps : (s.emitTick).straps = s.straps := rfl
@[simp] theorem State.emitTick_clients : (s.emitTick).clients = s.clients := rfl
@[simp] theorem State.emitTick_supervisor : (s.emitTick).supervisor = s.supervisor := rfl
@[simp] theorem State.emitTick_slots : (s.emitTick).slots = s.slots := rfl
@[simp] theorem State.emitTick_portI : (s.emitTick).portI = s.portI := rfl
@[simp] theorem State.emitTick_portS : (s.emitTick).portS = s.portS := rfl
@[simp] theorem State.emitTick_entries : (s.emitTick).entries = s.entries := rfl
@[simp] theorem State.emitTick_waitList : (s.emitTick).waitList = s.waitList := rfl
@[simp] theorem State.emitTick_fences : (s.emitTick).fences = s.fences := rfl
@[simp] theorem State.emitTick_tickRate : (s.emitTick).tickRate = s.tickRate := rfl
@[simp] theorem State.emitTick_tickPosition : (s.emitTick).tickPosition = 0 := rfl
@[simp] theorem State.emitTick_entryTicks : (s.emitTick).entryTicks = Vector.replicate 32 true := rfl
@[simp] theorem State.emitTick_clientTicks : (s.emitTick).clientTicks = Vector.replicate 8 true := rfl
@[simp] theorem State.emitTick_idlePlan : (s.emitTick).idlePlan = s.idlePlan := rfl
@[simp] theorem State.emitTick_effective : (s.emitTick).effective = s.effective := rfl
@[simp] theorem State.emitTick_lastSample : (s.emitTick).lastSample = s.lastSample := rfl
@[simp] theorem State.emitTick_samplePosition : (s.emitTick).samplePosition = s.samplePosition := rfl
@[simp] theorem State.emitTick_generators : (s.emitTick).generators = s.generators := rfl
@[simp] theorem State.emitTick_reference : (s.emitTick).reference = s.reference := rfl
@[simp] theorem State.emitTick_acquisition : (s.emitTick).acquisition = s.acquisition := rfl
@[simp] theorem State.emitTick_convQueue : (s.emitTick).convQueue = s.convQueue := rfl
@[simp] theorem State.emitTick_inFlight : (s.emitTick).inFlight = s.inFlight := rfl
@[simp] theorem State.emitTick_notices : (s.emitTick).notices = s.notices := rfl
@[simp] theorem State.emitTick_gained : (s.emitTick).gained = s.gained := rfl
@[simp] theorem State.emitTick_cursors : (s.emitTick).cursors = s.cursors := rfl
@[simp] theorem State.emitTick_attnI : (s.emitTick).attnI = s.attnI := rfl
@[simp] theorem State.emitTick_attnS : (s.emitTick).attnS = s.attnS := rfl
@[simp] theorem State.emitTick_pending : (s.emitTick).pending = s.pending := rfl

/-! ## afterPeriod -/

@[simp] theorem State.afterPeriod_phase : s.afterPeriod.phase = s.phase.afterPeriod := rfl
@[simp] theorem State.afterPeriod_cause : s.afterPeriod.cause = s.cause := rfl
@[simp] theorem State.afterPeriod_straps : s.afterPeriod.straps = s.straps := rfl
@[simp] theorem State.afterPeriod_clients : s.afterPeriod.clients = s.clients := rfl
@[simp] theorem State.afterPeriod_supervisor : s.afterPeriod.supervisor = s.supervisor := rfl
@[simp] theorem State.afterPeriod_slots : s.afterPeriod.slots = s.slots := rfl
@[simp] theorem State.afterPeriod_portI : s.afterPeriod.portI = s.portI := rfl
@[simp] theorem State.afterPeriod_portS : s.afterPeriod.portS = s.portS := rfl
@[simp] theorem State.afterPeriod_entries : s.afterPeriod.entries = s.entries := rfl
@[simp] theorem State.afterPeriod_waitList : s.afterPeriod.waitList = s.waitList := rfl
@[simp] theorem State.afterPeriod_fences : s.afterPeriod.fences = s.fences := rfl
@[simp] theorem State.afterPeriod_tickRate : s.afterPeriod.tickRate = s.tickRate := rfl
@[simp] theorem State.afterPeriod_tickPosition : s.afterPeriod.tickPosition = s.tickPosition + 1 := rfl
@[simp] theorem State.afterPeriod_entryTicks : s.afterPeriod.entryTicks = Vector.replicate 32 false := rfl
@[simp] theorem State.afterPeriod_clientTicks : s.afterPeriod.clientTicks = Vector.replicate 8 false := rfl
@[simp] theorem State.afterPeriod_idlePlan : s.afterPeriod.idlePlan = s.idlePlan := rfl
@[simp] theorem State.afterPeriod_effective : s.afterPeriod.effective = s.effective := rfl
@[simp] theorem State.afterPeriod_lastSample : s.afterPeriod.lastSample = s.lastSample := rfl
@[simp] theorem State.afterPeriod_samplePosition : s.afterPeriod.samplePosition = s.samplePosition + 1 := rfl
@[simp] theorem State.afterPeriod_generators :
    s.afterPeriod.generators = tabulate fun g => s.generators[g].afterPeriod := rfl
@[simp] theorem State.afterPeriod_reference : s.afterPeriod.reference = s.reference := rfl
@[simp] theorem State.afterPeriod_acquisition : s.afterPeriod.acquisition = s.acquisition := rfl
@[simp] theorem State.afterPeriod_convQueue : s.afterPeriod.convQueue = s.convQueue := rfl
@[simp] theorem State.afterPeriod_inFlight :
    s.afterPeriod.inFlight = s.inFlight.map fun r => { r with elapsed := r.elapsed + 1 } := rfl
@[simp] theorem State.afterPeriod_notices : s.afterPeriod.notices = s.notices := rfl
@[simp] theorem State.afterPeriod_gained : s.afterPeriod.gained = s.gained := rfl
@[simp] theorem State.afterPeriod_cursors : s.afterPeriod.cursors = s.cursors := rfl
@[simp] theorem State.afterPeriod_attnI : s.afterPeriod.attnI = s.attnI := rfl
@[simp] theorem State.afterPeriod_attnS : s.afterPeriod.attnS = s.attnS := rfl
@[simp] theorem State.afterPeriod_pending : s.afterPeriod.pending = s.pending := rfl

/-! ## busFree -/

@[simp] theorem State.busFree_phase : (s.busFree).phase = s.phase := rfl
@[simp] theorem State.busFree_cause : (s.busFree).cause = s.cause := rfl
@[simp] theorem State.busFree_straps : (s.busFree).straps = s.straps := rfl
@[simp] theorem State.busFree_clients : (s.busFree).clients = s.clients := rfl
@[simp] theorem State.busFree_supervisor : (s.busFree).supervisor = s.supervisor := rfl
@[simp] theorem State.busFree_slots : (s.busFree).slots = s.slots := rfl
@[simp] theorem State.busFree_portI : (s.busFree).portI = { s.portI with bus := .idle } := rfl
@[simp] theorem State.busFree_portS : (s.busFree).portS = s.portS := rfl
@[simp] theorem State.busFree_entries : (s.busFree).entries = s.entries := rfl
@[simp] theorem State.busFree_waitList : (s.busFree).waitList = s.waitList := rfl
@[simp] theorem State.busFree_fences : (s.busFree).fences = s.fences := rfl
@[simp] theorem State.busFree_tickRate : (s.busFree).tickRate = s.tickRate := rfl
@[simp] theorem State.busFree_tickPosition : (s.busFree).tickPosition = s.tickPosition := rfl
@[simp] theorem State.busFree_entryTicks : (s.busFree).entryTicks = s.entryTicks := rfl
@[simp] theorem State.busFree_clientTicks : (s.busFree).clientTicks = s.clientTicks := rfl
@[simp] theorem State.busFree_idlePlan : (s.busFree).idlePlan = s.idlePlan := rfl
@[simp] theorem State.busFree_effective : (s.busFree).effective = s.effective := rfl
@[simp] theorem State.busFree_lastSample : (s.busFree).lastSample = s.lastSample := rfl
@[simp] theorem State.busFree_samplePosition : (s.busFree).samplePosition = s.samplePosition := rfl
@[simp] theorem State.busFree_generators : (s.busFree).generators = s.generators := rfl
@[simp] theorem State.busFree_reference : (s.busFree).reference = s.reference := rfl
@[simp] theorem State.busFree_acquisition : (s.busFree).acquisition = s.acquisition := rfl
@[simp] theorem State.busFree_convQueue : (s.busFree).convQueue = s.convQueue := rfl
@[simp] theorem State.busFree_inFlight : (s.busFree).inFlight = s.inFlight := rfl
@[simp] theorem State.busFree_notices : (s.busFree).notices = s.notices := rfl
@[simp] theorem State.busFree_gained : (s.busFree).gained = s.gained := rfl
@[simp] theorem State.busFree_cursors : (s.busFree).cursors = s.cursors := rfl
@[simp] theorem State.busFree_attnI : (s.busFree).attnI = s.attnI := rfl
@[simp] theorem State.busFree_attnS : (s.busFree).attnS = s.attnS := rfl
@[simp] theorem State.busFree_pending : (s.busFree).pending = s.pending := rfl

/-! ## windowClosed -/

@[simp] theorem State.windowClosed_phase : (s.windowClosed).phase = s.phase := rfl
@[simp] theorem State.windowClosed_cause : (s.windowClosed).cause = s.cause := rfl
@[simp] theorem State.windowClosed_straps : (s.windowClosed).straps = s.straps := rfl
@[simp] theorem State.windowClosed_clients : (s.windowClosed).clients = s.clients := rfl
@[simp] theorem State.windowClosed_supervisor : (s.windowClosed).supervisor = s.supervisor := rfl
@[simp] theorem State.windowClosed_slots : (s.windowClosed).slots = s.slots := rfl
@[simp] theorem State.windowClosed_portI : (s.windowClosed).portI = s.portI := rfl
@[simp] theorem State.windowClosed_portS : (s.windowClosed).portS = { s.portS with window := .closed } := rfl
@[simp] theorem State.windowClosed_entries : (s.windowClosed).entries = s.entries := rfl
@[simp] theorem State.windowClosed_waitList : (s.windowClosed).waitList = s.waitList := rfl
@[simp] theorem State.windowClosed_fences : (s.windowClosed).fences = s.fences := rfl
@[simp] theorem State.windowClosed_tickRate : (s.windowClosed).tickRate = s.tickRate := rfl
@[simp] theorem State.windowClosed_tickPosition : (s.windowClosed).tickPosition = s.tickPosition := rfl
@[simp] theorem State.windowClosed_entryTicks : (s.windowClosed).entryTicks = s.entryTicks := rfl
@[simp] theorem State.windowClosed_clientTicks : (s.windowClosed).clientTicks = s.clientTicks := rfl
@[simp] theorem State.windowClosed_idlePlan : (s.windowClosed).idlePlan = s.idlePlan := rfl
@[simp] theorem State.windowClosed_effective : (s.windowClosed).effective = s.effective := rfl
@[simp] theorem State.windowClosed_lastSample : (s.windowClosed).lastSample = s.lastSample := rfl
@[simp] theorem State.windowClosed_samplePosition : (s.windowClosed).samplePosition = s.samplePosition := rfl
@[simp] theorem State.windowClosed_generators : (s.windowClosed).generators = s.generators := rfl
@[simp] theorem State.windowClosed_reference : (s.windowClosed).reference = s.reference := rfl
@[simp] theorem State.windowClosed_acquisition : (s.windowClosed).acquisition = s.acquisition := rfl
@[simp] theorem State.windowClosed_convQueue : (s.windowClosed).convQueue = s.convQueue := rfl
@[simp] theorem State.windowClosed_inFlight : (s.windowClosed).inFlight = s.inFlight := rfl
@[simp] theorem State.windowClosed_notices : (s.windowClosed).notices = s.notices := rfl
@[simp] theorem State.windowClosed_gained : (s.windowClosed).gained = s.gained := rfl
@[simp] theorem State.windowClosed_cursors : (s.windowClosed).cursors = s.cursors := rfl
@[simp] theorem State.windowClosed_attnI : (s.windowClosed).attnI = s.attnI := rfl
@[simp] theorem State.windowClosed_attnS : (s.windowClosed).attnS = s.attnS := rfl
@[simp] theorem State.windowClosed_pending : (s.windowClosed).pending = s.pending := rfl

/-! ## Reading one record -/

@[simp] theorem State.entry_setEntry (i j : Slot) (e : Entry) : (s.setEntry i e).entry j = if j = i then e else s.entry j := by
  simp only [State.entry, State.setEntry, Fin.getElem_fin, Vector.getElem_set]
  by_cases h : i = j
  · subst h; simp
  · rw [if_neg (fun hv => h (Fin.ext hv)), if_neg (fun hv => h hv.symm)]

@[simp] theorem State.entry_setBody (i j : Slot) (b : EntryBody) :
    (s.setBody i b).entry j = if j = i then ⟨(s.entry i).generation, b⟩ else s.entry j := by
  simp [State.setBody]

@[simp] theorem State.client_setClient (c d : Client) (r : ClientRecord) :
    (s.setClient c r).client d = if d = c then r else s.client d := by
  simp only [State.client, State.setClient, Fin.getElem_fin, Vector.getElem_set]
  by_cases h : c = d
  · subst h; simp
  · rw [if_neg (fun hv => h (Fin.ext hv)), if_neg (fun hv => h hv.symm)]

@[simp] theorem State.slot_setSlot (c d : Client) (r : ResponseSlot) :
    (s.setSlot c r).slot d = if d = c then r else s.slot d := by
  simp only [State.slot, State.setSlot, Fin.getElem_fin, Vector.getElem_set]
  by_cases h : c = d
  · subst h; simp
  · rw [if_neg (fun hv => h (Fin.ext hv)), if_neg (fun hv => h hv.symm)]

@[simp] theorem State.noticesOf_setNotices (i j : Slot) (p : PendingSet) :
    (s.setNotices i p).noticesOf j = if j = i then p else s.noticesOf j := by
  simp only [State.noticesOf, State.setNotices, Fin.getElem_fin, Vector.getElem_set]
  by_cases h : i = j
  · subst h; simp
  · rw [if_neg (fun hv => h (Fin.ext hv)), if_neg (fun hv => h hv.symm)]

@[simp] theorem State.client_setEntry (i : Slot) (e : Entry) (d : Client) :
    (s.setEntry i e).client d = s.client d := rfl
@[simp] theorem State.slot_setEntry (i : Slot) (e : Entry) (d : Client) : (s.setEntry i e).slot d = s.slot d := rfl
@[simp] theorem State.noticesOf_setEntry (i : Slot) (e : Entry) (j : Slot) :
    (s.setEntry i e).noticesOf j = s.noticesOf j := rfl
@[simp] theorem State.client_setBody (i : Slot) (b : EntryBody) (d : Client) :
    (s.setBody i b).client d = s.client d := rfl
@[simp] theorem State.slot_setBody (i : Slot) (b : EntryBody) (d : Client) : (s.setBody i b).slot d = s.slot d := rfl
@[simp] theorem State.noticesOf_setBody (i : Slot) (b : EntryBody) (j : Slot) :
    (s.setBody i b).noticesOf j = s.noticesOf j := rfl
@[simp] theorem State.entry_setClient (c : Client) (r : ClientRecord) (j : Slot) :
    (s.setClient c r).entry j = s.entry j := rfl
@[simp] theorem State.slot_setClient (c : Client) (r : ClientRecord) (d : Client) :
    (s.setClient c r).slot d = s.slot d := rfl
@[simp] theorem State.noticesOf_setClient (c : Client) (r : ClientRecord) (j : Slot) :
    (s.setClient c r).noticesOf j = s.noticesOf j := rfl
@[simp] theorem State.entry_setSlot (c : Client) (r : ResponseSlot) (j : Slot) :
    (s.setSlot c r).entry j = s.entry j := rfl
@[simp] theorem State.client_setSlot (c : Client) (r : ResponseSlot) (d : Client) :
    (s.setSlot c r).client d = s.client d := rfl
@[simp] theorem State.noticesOf_setSlot (c : Client) (r : ResponseSlot) (j : Slot) :
    (s.setSlot c r).noticesOf j = s.noticesOf j := rfl
@[simp] theorem State.entry_setNotices (i : Slot) (p : PendingSet) (j : Slot) :
    (s.setNotices i p).entry j = s.entry j := rfl
@[simp] theorem State.client_setNotices (i : Slot) (p : PendingSet) (d : Client) :
    (s.setNotices i p).client d = s.client d := rfl
@[simp] theorem State.slot_setNotices (i : Slot) (p : PendingSet) (d : Client) :
    (s.setNotices i p).slot d = s.slot d := rfl
@[simp] theorem State.entry_postGranted (i : Slot) (j : Slot) : (s.postGranted i).entry j = s.entry j := rfl
@[simp] theorem State.client_postGranted (i : Slot) (d : Client) : (s.postGranted i).client d = s.client d := rfl
@[simp] theorem State.slot_postGranted (i : Slot) (d : Client) : (s.postGranted i).slot d = s.slot d := rfl
@[simp] theorem State.entry_postDue (i : Slot) (j : Slot) : (s.postDue i).entry j = s.entry j := rfl
@[simp] theorem State.client_postDue (i : Slot) (d : Client) : (s.postDue i).client d = s.client d := rfl
@[simp] theorem State.slot_postDue (i : Slot) (d : Client) : (s.postDue i).slot d = s.slot d := rfl
@[simp] theorem State.entry_postEnded (i : Slot) (r : EndReason) (j : Slot) :
    (s.postEnded i r).entry j = s.entry j := rfl
@[simp] theorem State.client_postEnded (i : Slot) (r : EndReason) (d : Client) :
    (s.postEnded i r).client d = s.client d := rfl
@[simp] theorem State.slot_postEnded (i : Slot) (r : EndReason) (d : Client) :
    (s.postEnded i r).slot d = s.slot d := rfl
@[simp] theorem State.entry_postConverted (i : Slot) (j : Slot) : (s.postConverted i).entry j = s.entry j := rfl
@[simp] theorem State.client_postConverted (i : Slot) (d : Client) : (s.postConverted i).client d = s.client d := rfl
@[simp] theorem State.slot_postConverted (i : Slot) (d : Client) : (s.postConverted i).slot d = s.slot d := rfl
@[simp] theorem State.entry_postPulseApplied (i : Slot) (j : Slot) : (s.postPulseApplied i).entry j = s.entry j := rfl
@[simp] theorem State.client_postPulseApplied (i : Slot) (d : Client) :
    (s.postPulseApplied i).client d = s.client d := rfl
@[simp] theorem State.slot_postPulseApplied (i : Slot) (d : Client) : (s.postPulseApplied i).slot d = s.slot d := rfl
@[simp] theorem State.entry_discardNotices (i : Slot) (j : Slot) : (s.discardNotices i).entry j = s.entry j := rfl
@[simp] theorem State.client_discardNotices (i : Slot) (d : Client) :
    (s.discardNotices i).client d = s.client d := rfl
@[simp] theorem State.slot_discardNotices (i : Slot) (d : Client) : (s.discardNotices i).slot d = s.slot d := rfl
@[simp] theorem State.entry_settleAttention (j : Slot) : (s.settleAttention).entry j = s.entry j := rfl
@[simp] theorem State.client_settleAttention (d : Client) : (s.settleAttention).client d = s.client d := rfl
@[simp] theorem State.slot_settleAttention (d : Client) : (s.settleAttention).slot d = s.slot d := rfl
@[simp] theorem State.noticesOf_settleAttention (j : Slot) : (s.settleAttention).noticesOf j = s.noticesOf j := rfl
@[simp] theorem State.entry_emptySlot (c : Client) (j : Slot) : (s.emptySlot c).entry j = s.entry j := rfl
@[simp] theorem State.client_emptySlot (c : Client) (d : Client) : (s.emptySlot c).client d = s.client d := rfl
@[simp] theorem State.noticesOf_emptySlot (c : Client) (j : Slot) : (s.emptySlot c).noticesOf j = s.noticesOf j := rfl
@[simp] theorem State.entry_configureLines (ps : LineConfigs) (j : Slot) :
    (s.configureLines ps).entry j = s.entry j := rfl
@[simp] theorem State.client_configureLines (ps : LineConfigs) (d : Client) :
    (s.configureLines ps).client d = s.client d := rfl
@[simp] theorem State.slot_configureLines (ps : LineConfigs) (d : Client) :
    (s.configureLines ps).slot d = s.slot d := rfl
@[simp] theorem State.noticesOf_configureLines (ps : LineConfigs) (j : Slot) :
    (s.configureLines ps).noticesOf j = s.noticesOf j := rfl
@[simp] theorem State.entry_startGenerators (rs : List (GenIx × Running)) (j : Slot) :
    (s.startGenerators rs).entry j = s.entry j := rfl
@[simp] theorem State.client_startGenerators (rs : List (GenIx × Running)) (d : Client) :
    (s.startGenerators rs).client d = s.client d := rfl
@[simp] theorem State.slot_startGenerators (rs : List (GenIx × Running)) (d : Client) :
    (s.startGenerators rs).slot d = s.slot d := rfl
@[simp] theorem State.noticesOf_startGenerators (rs : List (GenIx × Running)) (j : Slot) :
    (s.startGenerators rs).noticesOf j = s.noticesOf j := rfl
@[simp] theorem State.entry_stopGenerators (i : Slot) (j : Slot) : (s.stopGenerators i).entry j = s.entry j := rfl
@[simp] theorem State.client_stopGenerators (i : Slot) (d : Client) :
    (s.stopGenerators i).client d = s.client d := rfl
@[simp] theorem State.slot_stopGenerators (i : Slot) (d : Client) : (s.stopGenerators i).slot d = s.slot d := rfl
@[simp] theorem State.noticesOf_stopGenerators (i : Slot) (j : Slot) :
    (s.stopGenerators i).noticesOf j = s.noticesOf j := rfl
@[simp] theorem State.entry_mapGroup (i : Slot) (f : Running → Running) (j : Slot) :
    (s.mapGroup i f).entry j = s.entry j := rfl
@[simp] theorem State.client_mapGroup (i : Slot) (f : Running → Running) (d : Client) :
    (s.mapGroup i f).client d = s.client d := rfl
@[simp] theorem State.slot_mapGroup (i : Slot) (f : Running → Running) (d : Client) :
    (s.mapGroup i f).slot d = s.slot d := rfl
@[simp] theorem State.noticesOf_mapGroup (i : Slot) (f : Running → Running) (j : Slot) :
    (s.mapGroup i f).noticesOf j = s.noticesOf j := rfl
@[simp] theorem State.entry_leaveWaitList (i : Slot) (j : Slot) : (s.leaveWaitList i).entry j = s.entry j := rfl
@[simp] theorem State.client_leaveWaitList (i : Slot) (d : Client) : (s.leaveWaitList i).client d = s.client d := rfl
@[simp] theorem State.slot_leaveWaitList (i : Slot) (d : Client) : (s.leaveWaitList i).slot d = s.slot d := rfl
@[simp] theorem State.noticesOf_leaveWaitList (i : Slot) (j : Slot) :
    (s.leaveWaitList i).noticesOf j = s.noticesOf j := rfl
@[simp] theorem State.entry_emitTick (j : Slot) : (s.emitTick).entry j = s.entry j := rfl
@[simp] theorem State.client_emitTick (d : Client) : (s.emitTick).client d = s.client d := rfl
@[simp] theorem State.slot_emitTick (d : Client) : (s.emitTick).slot d = s.slot d := rfl
@[simp] theorem State.noticesOf_emitTick (j : Slot) : (s.emitTick).noticesOf j = s.noticesOf j := rfl
@[simp] theorem State.entry_busFree (j : Slot) : (s.busFree).entry j = s.entry j := rfl
@[simp] theorem State.client_busFree (d : Client) : (s.busFree).client d = s.client d := rfl
@[simp] theorem State.slot_busFree (d : Client) : (s.busFree).slot d = s.slot d := rfl
@[simp] theorem State.noticesOf_busFree (j : Slot) : (s.busFree).noticesOf j = s.noticesOf j := rfl
@[simp] theorem State.entry_windowClosed (j : Slot) : (s.windowClosed).entry j = s.entry j := rfl
@[simp] theorem State.client_windowClosed (d : Client) : (s.windowClosed).client d = s.client d := rfl
@[simp] theorem State.slot_windowClosed (d : Client) : (s.windowClosed).slot d = s.slot d := rfl
@[simp] theorem State.noticesOf_windowClosed (j : Slot) : (s.windowClosed).noticesOf j = s.noticesOf j := rfl

end Sys2Proof.Machine
end

