-- ==== Sys2Proof/Laws/Checks.lean ====
section
/-!
SUPPORT. What the checks of a command can answer, and what taking a command does: one lemma for each shared operation of
Operands, Ops and Flags.
-/

namespace Sys2Proof.Machine

/-! ## Checks -/

@[simp] theorem ensure_true (st : Status) : ensure true st = .ok () := rfl

@[simp] theorem ensure_false (st : Status) : ensure false st = .error ⟨st, []⟩ := rfl

theorem ensure_ok_iff (b : Bool) (st : Status) : ensure b st = .ok () ↔ b = true := by
  cases b <;> simp [ensure, refuse]

@[simp] theorem need_some {α : Type} (a : α) (st : Status) : need (some a) st = .ok a := rfl

@[simp] theorem need_none {α : Type} (st : Status) : need (none : Option α) st = .error ⟨st, []⟩ := rfl

@[simp] theorem check_ok_bind {α β : Type} (a : α) (f : α → Check β) : (Except.ok a >>= f : Check β) = f a := rfl

@[simp] theorem check_error_bind {α β : Type} (e : Answer) (f : α → Check β) :
    (Except.error e >>= f : Check β) = .error e := rfl

@[simp] theorem check_pure {α : Type} (a : α) : (pure a : Check α) = .ok a := rfl

/-- A check that is made of two accepts exactly when the first does and the second does on what the first gave. -/
theorem check_bind_ok_iff {α β : Type} (x : Check α) (f : α → Check β) (b : β) :
    x >>= f = .ok b ↔ ∃ a, x = .ok a ∧ f a = .ok b := by
  cases x <;> simp

/-! ## Accepting and refusing -/

@[simp] theorem answerWith_ok {α : Type} (s : State) (x : α) (act : α → State × Answer) :
    answerWith s (.ok x) act = act x := rfl

@[simp] theorem answerWith_error {α : Type} (s : State) (a : Answer) (act : α → State × Answer) :
    answerWith s (.error a : Check α) act = (s, a) := rfl

/-- A command's effect is its refusal, with no change, or its action on what the checks gave. -/
theorem answerWith_cases {α : Type} (s : State) (chk : Check α) (act : α → State × Answer) :
    (∃ a, chk = .error a ∧ answerWith s chk act = (s, a)) ∨ ∃ x, chk = .ok x ∧ answerWith s chk act = act x := by
  cases chk with
  | error a => exact .inl ⟨a, rfl, rfl⟩
  | ok x => exact .inr ⟨x, rfl, rfl⟩

/-! ## Taking a command -/

/-- A command that has been accepted is applied, and its response is written at the end of the event. -/
theorem takeCommand_sent (cmd : Command) (run : Client → List Byte → State → State × Answer) (c : Client) (s : State)
    (tag : Byte) (body : List Byte) (h : Sent s c cmd tag body) :
    takeCommand cmd run c s = (run c body s).1.respond c tag (run c body s).2 := by
  simp [takeCommand, show (s.slot c).state = .busy ⟨tag, cmd, body⟩ from h]

/-- Where the slot does not hold the command, nothing changes. -/
theorem takeCommand_absent (cmd : Command) (run : Client → List Byte → State → State × Answer) (c : Client) (s : State)
    (h : ∀ tag body, ¬Sent s c cmd tag body) : takeCommand cmd run c s = s := by
  unfold takeCommand
  split
  · next a ha =>
    split
    · next hc => exact absurd (by rw [Sent, ha, ← hc]) (h a.tag a.body)
    · rfl
  · rfl

/-- Writing a response changes one slot and nothing else. -/
theorem State.respond_eq (s : State) (c : Client) (tag : Byte) (a : Answer) :
    s.respond c tag a =
      s.setSlot c ⟨.ready ⟨a.status, tag,
        ⟨(s.slot c).dropped, (s.slot c).previousUnread, s.supervisor = c, s.hasNotice c⟩, a.body⟩, false, false⟩ := rfl

/-- A command that is taken answers with what its run gives, if the run leaves the slot's indications as they were. -/
theorem takeCommand_answers (cmd : Command) (run : Client → List Byte → State → State × Answer) (row : Instr) (c : Client)
    (s u : State) (tag : Byte) (body : List Byte) (a : Answer) (hrow : exec row s = .next (takeCommand cmd run c s))
    (h : Sent s c cmd tag body) (hrun : run c body s = (u, a)) (hslot : u.slot c = s.slot c) :
    Answers row s u c tag a.status a.body := by
  rw [Answers, hrow, takeCommand_sent cmd run c s tag body h, hrun, State.respond_eq, hslot]

/-! ## Handles -/

theorem handleSlot_handleByte (g : Fin 8) (i : Slot) : handleSlot (handleByte g i) = i := by
  apply Fin.ext
  simp [handleSlot, handleByte, byteOf, Fin.ofNat]

theorem handleGeneration_handleByte (g : Fin 8) (i : Slot) : handleGeneration (handleByte g i) = g := by
  have hg := g.isLt
  have hi := i.isLt
  apply Fin.ext
  simp [handleGeneration, handleByte, byteOf, Fin.ofNat]
  omega

/-- The handle of an entry resolves to its slot for its owner, and for a client excepted from the owner check. -/
theorem State.resolve_own (s : State) (c : Client) (excepted : Bool) (i : Slot) (cl : Claim)
    (hcl : (s.entry i).body.claim = some cl) (ho : cl.owner = c ∨ excepted = true) :
    s.resolve c excepted (handleByte (s.entry i).generation i) = .ok i := by
  simp only [State.resolve, handleSlot_handleByte, handleGeneration_handleByte, hcl, decide_true, ensure_true,
    check_ok_bind]
  have : (decide (cl.owner = c) || excepted) = true := by
    rcases ho with h | h <;> simp [h]
  rw [this, ensure_true, check_ok_bind, check_pure]

/-- What resolving a handle can answer: the slot, or STALE_HANDLE or NOT_OWNER. -/
theorem State.resolve_cases (s : State) (c : Client) (excepted : Bool) (h : Byte) :
    s.resolve c excepted h = .error ⟨.staleHandle, []⟩ ∨ s.resolve c excepted h = .error ⟨.notOwner, []⟩ ∨
      ∃ cl, s.resolve c excepted h = .ok (handleSlot h) ∧ (s.entry (handleSlot h)).body.claim = some cl ∧
        (s.entry (handleSlot h)).generation = handleGeneration h ∧ (cl.owner = c ∨ excepted = true) := by
  unfold State.resolve
  dsimp only
  split
  · exact .inl rfl
  · next cl hcl =>
    by_cases hg : (s.entry (handleSlot h)).generation = handleGeneration h
    · by_cases ho : (decide (cl.owner = c) || excepted) = true
      · exact .inr (.inr ⟨cl, by simp only [hg, decide_true, ensure_true, check_ok_bind, ho, check_pure], hcl, hg,
          by simpa using ho⟩)
      · refine .inr (.inl ?_)
        simp only [hg, decide_true, ensure_true, check_ok_bind, Bool.not_eq_true _ ▸ ho, ensure_false, check_error_bind]
    · refine .inl ?_
      simp only [hg, decide_false, ensure_false, check_error_bind]

/-- The client owns an entry exactly when the entry has a claim with that owner. -/
theorem EntryBody.ownedBy_iff (b : EntryBody) (c : Client) : b.ownedBy c = true ↔ ∃ cl, b.claim = some cl ∧ cl.owner = c := by
  cases b <;> simp [EntryBody.ownedBy, EntryBody.claim]

/-- A handle that names an entry of the client resolves to its slot. -/
theorem State.resolve_names (s : State) (c : Client) (excepted : Bool) (h : Byte) (i : Slot) (hn : Names s c h i) :
    s.resolve c excepted h = .ok i := by
  obtain ⟨rfl, ho⟩ := hn
  obtain ⟨cl, hcl, hc⟩ := (EntryBody.ownedBy_iff _ _).1 ho
  exact s.resolve_own c excepted i cl hcl (.inl hc)

/-! ## Bodies -/

/-- Bytes laid out as pairs divide into those pairs. -/
@[simp] theorem pairsOf_pairBytes (ps : List (Byte × Byte)) : pairsOf (pairBytes ps) = some ps := by
  induction ps with
  | nil => rfl
  | cons p ps ih => simpa [pairBytes, pairsOf] using ih

/-- Bytes divide into pairs only as those pairs lie. -/
theorem pairBytes_of_pairsOf : ∀ (bs : List Byte) (ps : List (Byte × Byte)), pairsOf bs = some ps → bs = pairBytes ps
  | [], ps, h => by simp only [pairsOf, Option.some.injEq] at h; subst h; rfl
  | [_], _, h => nomatch h
  | a :: b :: rest, ps, h => by
    obtain ⟨qs, hq, rfl⟩ : ∃ qs, pairsOf rest = some qs ∧ (a, b) :: qs = ps := by simpa [pairsOf] using h
    rw [pairBytes_of_pairsOf rest qs hq]
    rfl

/-- Bytes divide into pairs exactly when their number is even. -/
theorem pairsOf_none_iff : ∀ bs : List Byte, pairsOf bs = none ↔ bs.length % 2 = 1
  | [] => by simp [pairsOf]
  | [_] => by simp [pairsOf]
  | a :: b :: rest => by
    have ih := pairsOf_none_iff rest
    simp only [pairsOf, Option.map_eq_none_iff, List.length_cons, ih]
    omega

/-- Every element has an image where each one has, and the images stand in order. -/
theorem mapAll_map {α β γ : Type} (f : β → Option γ) (g : α → β) (v : α → γ) (xs : List α)
    (h : ∀ x ∈ xs, f (g x) = some (v x)) : mapAll f (xs.map g) = some (xs.map v) := by
  induction xs with
  | nil => rfl
  | cons x xs ih => simp [mapAll, h x (.head _), ih fun y hy => h y (.tail _ hy)]

/-- Some element has no image exactly when there is no list of images. -/
theorem mapAll_none_iff {α β : Type} (f : α → Option β) (xs : List α) : mapAll f xs = none ↔ ∃ x ∈ xs, f x = none := by
  induction xs with
  | nil => simp [mapAll]
  | cons x xs ih =>
    cases hx : f x with
    | none => simp [mapAll, hx]
    | some y =>
      cases hr : mapAll f xs with
      | none => simpa [mapAll, hx, hr] using ih.1 hr
      | some ys => simpa [mapAll, hx, hr] using fun z hz => mt (fun h => ih.2 ⟨z, hz, h⟩) (by simp [hr])

/-- A line's number names the line. -/
@[simp] theorem lineOfByte_byteOf (l : Line) : lineOfByte (byteOf l.val) = some l := by
  revert l
  decide

/-- A byte names no line exactly when it is above 23. -/
theorem lineOfByte_none_iff (b : Byte) : lineOfByte b = none ↔ 23 < b.toNat := by
  by_cases h : b.toNat < 24 <;> simp [lineOfByte, h] <;> omega

end Sys2Proof.Machine
end

