-- ==== Sys2Proof/Laws/Operations.lean ====
section
/-!
SUPPORT. What the shared operations of Lines, Grant, Lifecycle, Flags and Converter can do: their equations, the fields that
they leave, and one induction principle for each pass over a list (a grant scan, the entries of a teardown, the start of
queued requests).
-/

namespace Sys2Proof.Machine

variable (s : State)

/-! ## Sets of lines -/

@[simp] theorem inSet_zero (l : Line) : inSet l 0 = false := by simp [inSet]

@[simp] theorem inSet_or (l : Line) (a b : LineSet) : inSet l (a ||| b) = (inSet l a || inSet l b) := by simp [inSet]

@[simp] theorem inSet_and (l : Line) (a b : LineSet) : inSet l (a &&& b) = (inSet l a && inSet l b) := by simp [inSet]

@[simp] theorem inSet_not (l : Line) (a : LineSet) : inSet l (~~~a) = !inSet l a := by simp [inSet, l.isLt]

theorem inSet_lineBit (l k : Line) : inSet l (lineBit k) = decide (l = k) := by
  have := l.isLt
  simp only [inSet, lineBit, BitVec.getLsbD_shiftLeft, this, decide_true, Bool.true_and, BitVec.getLsbD_one]
  by_cases h : l = k
  · simp [h]
  · have : l.val ≠ k.val := fun e => h (Fin.ext e)
    simp [h]
    omega

/-- The set of a list's lines has exactly those lines. -/
theorem inSet_lineSet (l : Line) (ls : List Line) : inSet l (lineSet ls) = decide (l ∈ ls) := by
  induction ls with
  | nil => simpa [lineSet] using inSet_zero l
  | cons k ks ih =>
    have : lineSet (k :: ks) = lineBit k ||| lineSet ks := rfl
    rw [this, inSet_or, ih, inSet_lineBit]
    simp [Bool.decide_or]

/-! ## Pairs of two lists -/

/-- The pair at a place of two lists is the one that a lookup of its first half finds, where no first half is there
twice. -/
theorem lookup_zip_of_getElem {α β : Type} [DecidableEq α] (as : List α) (hn : as.Nodup) :
    ∀ (bs : List β) (n : Nat) (a : α) (b : β), as[n]? = some a → bs[n]? = some b → (as.zip bs).lookup a = some b := by
  induction as with
  | nil => intro bs n a b h; simp at h
  | cons x xs ih =>
    intro bs n a b ha hb
    obtain ⟨hx, hxs⟩ := List.nodup_cons.1 hn
    cases bs with
    | nil => simp at hb
    | cons y ys =>
      cases n with
      | zero =>
        obtain rfl : x = a := by simpa using ha
        obtain rfl : y = b := by simpa using hb
        simp
      | succ n =>
        have hne : (a == x) = false := by
          rw [beq_eq_false_iff_ne]
          rintro rfl
          exact hx (List.mem_of_getElem? (by simpa using ha))
        rw [List.zip_cons_cons, List.lookup_cons, hne]
        exact ih hxs ys n a b (by simpa using ha) (by simpa using hb)

theorem lookup_zip_of_not_mem {α β : Type} [DecidableEq α] (as : List α) (a : α) (h : a ∉ as) :
    ∀ bs : List β, (as.zip bs).lookup a = none := by
  induction as with
  | nil => intro bs; rfl
  | cons x xs ih =>
    intro bs
    obtain ⟨hx, hxs⟩ := not_or.1 (mt List.mem_cons.2 h)
    cases bs with
    | nil => rfl
    | cons y ys =>
      rw [List.zip_cons_cons, List.lookup_cons, beq_eq_false_iff_ne.2 hx]
      exact ih hxs ys

/-! ## Lines -/

/-- A change of lines gives each named line its new configuration, and leaves every other line (R7). -/
theorem State.configureLines_line (ps : LineConfigs) (l : Line) :
    (s.configureLines ps).effective[l] = (configFor ps l).getD s.effective[l] :=
  tabulate_getElem _ l

/-- The reports of a change set the DISTURBED mark exactly when the mode of the request's line differs (R15, R139). -/
theorem InFlight.afterReports_eq (before after : Vector LineConfig 24) (f : InFlight) :
    f.afterReports before after = { f with disturbed := f.disturbedBetween before after } := by
  unfold InFlight.afterReports InFlight.disturbedBetween
  by_cases h : before[f.request.line].mode = after[f.request.line].mode
  · rw [if_pos h, decide_eq_false (not_not_intro h), Bool.or_false]
  · rw [if_neg h, decide_eq_true h, Bool.or_true]

/-- The request in flight after a change of lines (R15). -/
theorem State.configureLines_request (ps : LineConfigs) :
    (s.configureLines ps).inFlight = s.inFlight.map fun f =>
      { f with disturbed := f.disturbedBetween s.effective (s.configureLines ps).effective } := by
  rw [State.configureLines_inFlight]
  congr 1
  funext f
  rw [InFlight.afterReports_eq]
  rfl

theorem configFor_idleConfigs (ls : List Line) (l : Line) :
    configFor (s.idleConfigs ls) l = if l ∈ ls then some s.idlePlan[l] else none := by
  induction ls with
  | nil => rfl
  | cons k ks ih =>
    simp only [configFor, State.idleConfigs, List.map_cons, List.lookup_cons] at ih ⊢
    by_cases h : l = k
    · simp [h]
    · have hb : (l == k) = false := by simpa using h
      rw [hb]
      simpa [h] using ih

/-- A line with an exclusive holder: the slot found holds it (R5). -/
theorem State.exclusiveSlot_some {l : Line} {i : Slot} (h : s.exclusiveSlot l = some i) :
    (s.entry i).body.holdsExclusive l = true := by
  simpa using List.find?_some h

/-- No exclusive holder is found exactly when no entry is one. -/
theorem State.exclusiveSlot_none_iff (l : Line) :
    s.exclusiveSlot l = none ↔ ∀ i : Slot, (s.entry i).body.holdsExclusive l = false := by
  simp [State.exclusiveSlot, List.find?_eq_none]

/-! ## Owners and notices -/

theorem State.mem_ownedSlots (c : Client) (i : Slot) : i ∈ s.ownedSlots c ↔ (s.entry i).body.ownedBy c = true := by
  simp [State.ownedSlots]

theorem State.ownedSlots_nodup (c : Client) : (s.ownedSlots c).Nodup := (List.nodup_finRange 32).filter _

theorem State.usedSlots_nodup : s.usedSlots.Nodup := (List.nodup_finRange 32).filter _

/-- Whether a client has a notice depends on its client reason, the entries and the notices alone (R154). -/
theorem State.hasNotice_congr {s t : State} (c : Client) (he : t.entries = s.entries) (hn : t.notices = s.notices)
    (hg : t.gained[c] = s.gained[c]) : t.hasNotice c = s.hasNotice c := by
  unfold State.hasNotice State.entry State.noticesOf
  rw [he, hn, hg]

/-- A client has a notice exactly with a client reason or a reason in an entry that it owns (R154). -/
theorem State.hasNotice_iff (c : Client) :
    s.hasNotice c = true ↔
      s.gained[c].isSome = true ∨ ∃ i : Slot, (s.entry i).body.ownedBy c = true ∧ s.noticesOf i ≠ PendingSet.empty := by
  simp [State.hasNotice]

/-- The attention lines agree with the notices after they are brought into agreement (R156). -/
theorem State.settleAttention_settled : s.settleAttention.settleAttention = s.settleAttention := rfl

/-! ## Generators -/

theorem State.mem_freeGenerators (g : GenIx) : g ∈ s.freeGenerators ↔ s.generators[g] = .free := by
  simp [State.freeGenerators]

theorem State.freeGenerators_nodup : s.freeGenerators.Nodup := (List.nodup_finRange 4).filter _

theorem State.startGenerators_generator (rs : List (GenIx × Running)) (g : GenIx) :
    (s.startGenerators rs).generators[g] = match rs.lookup g with | some r => .running r | none => s.generators[g] :=
  tabulate_getElem _ g

theorem State.stopGenerators_generator (i : Slot) (g : GenIx) :
    (s.stopGenerators i).generators[g] = if (s.generators[g].recordFor i).isSome then .free else s.generators[g] :=
  tabulate_getElem _ g

theorem State.mapGroup_generator (i : Slot) (f : Running → Running) (g : GenIx) :
    (s.mapGroup i f).generators[g] =
      match s.generators[g].recordFor i with | some r => .running (f r) | none => s.generators[g] :=
  tabulate_getElem _ g

/-! ## The end of one entry -/

/-- What an entry's end undoes lies in five fields: everything else is as before (R44, R46). -/
theorem State.undoEntry_eq (i : Slot) :
    s.undoEntry i = { s with
      waitList := (s.undoEntry i).waitList, effective := (s.undoEntry i).effective
      inFlight := (s.undoEntry i).inFlight, generators := (s.undoEntry i).generators
      convQueue := (s.undoEntry i).convQueue } := by
  unfold State.undoEntry
  split
  · rfl
  · rfl
  · next cl h _ =>
    unfold State.endEffects State.returnLines State.dropConversion
    split <;> split <;> rfl
  · rfl

@[simp] theorem State.entry_undoEntry (i j : Slot) : (s.undoEntry i).entry j = s.entry j := by
  rw [State.undoEntry_eq]; rfl

@[simp] theorem State.noticesOf_undoEntry (i j : Slot) : (s.undoEntry i).noticesOf j = s.noticesOf j := by
  rw [State.undoEntry_eq]; rfl

@[simp] theorem State.client_undoEntry (i : Slot) (c : Client) : (s.undoEntry i).client c = s.client c := by
  rw [State.undoEntry_eq]; rfl

@[simp] theorem State.slot_undoEntry (i : Slot) (c : Client) : (s.undoEntry i).slot c = s.slot c := by
  rw [State.undoEntry_eq]; rfl

/-! ## Passes over lists -/

@[simp] theorem State.retireAll_nil : s.retireAll [] = s := rfl

@[simp] theorem State.retireAll_cons (i : Slot) (is : List Slot) : s.retireAll (i :: is) = (s.retire i).retireAll is := rfl

/-- What the end of each entry keeps, the end of a list of them keeps. -/
theorem State.retireAll_keeps (P : State → Prop) (hstep : ∀ (t : State) (i : Slot), P t → P (t.retire i)) (is : List Slot) :
    ∀ s : State, P s → P (s.retireAll is) := by
  induction is with
  | nil => exact fun _ h => h
  | cons i is ih => exact fun s h => ih _ (hstep s i h)

/-- What one grant of a waiting entry keeps, a grant scan keeps: a scan does nothing but grant entries of its list that are
WAITING and grantable, each of which leaves the wait list first (R66). -/
theorem scanFrom_keeps (P : State → Prop)
    (hstep : ∀ (t : State) (older : List Slot) (i : Slot) (cl : Claim) (w : Waiting), P t →
      (t.entry i).body = .waiting cl w → t.grantable older (waitingCandidate cl w) = true →
        P ((t.leaveWaitList i).grantLease i cl w.configs w.pulse w.due)) (newer : List Slot) :
    ∀ (older : List Slot) (s : State), P s → P (scanFrom older newer s) := by
  induction newer with
  | nil => exact fun _ _ h => h
  | cons i newer ih =>
    intro older s h
    unfold scanFrom
    split
    · next cl w hb =>
      split
      · next hg => exact ih _ _ (hstep s older i cl w h hb hg)
      · exact ih _ _ h
    · exact ih _ _ h

/-- What a grant of a waiting entry keeps, the grant scan of the whole wait list keeps. -/
theorem State.grantScan_keeps (P : State → Prop)
    (hstep : ∀ (t : State) (older : List Slot) (i : Slot) (cl : Claim) (w : Waiting), P t →
      (t.entry i).body = .waiting cl w → t.grantable older (waitingCandidate cl w) = true →
        P ((t.leaveWaitList i).grantLease i cl w.configs w.pulse w.due)) (h : P s) : P s.grantScan :=
  scanFrom_keeps P hstep s.waitList [] s h

/-- The start of queued requests completes some with MODE_LOST and then starts one whose line is ANALOG, or leaves the
converter IDLE (R137): what each of these keeps, it keeps. -/
theorem startNext_keeps (P : State → Prop) (hidle : ∀ t : State, P t → P { t with convQueue := [], inFlight := none })
    (hlost : ∀ (t : State) (r : Request), P t → P (t.deliver r.slot r.line none .modeLost))
    (hstart : ∀ (t : State) (r : Request) (rest : List Request), P t → t.effective[r.line].mode = .analog →
      P { t.setBody r.slot ((t.entry r.slot).body.withConv .inFlight) with
        convQueue := rest, inFlight := some (t.started r) }) (q : List Request) :
    ∀ s : State, P s → P (startNext q s) := by
  induction q with
  | nil => exact fun s h => hidle s h
  | cons r rest ih =>
    intro s h
    unfold startNext
    split
    · next hm => exact hstart s r rest h hm
    · exact ih _ (hlost s r h)

/-! ## The clock -/

/-- A step with no command waiting changes nothing, or is one oscillator period in which nothing was due (log 2). -/
theorem State.idle_cases : s.idle = s ∨ (s.phase.active = true ∧ s.someDue = false ∧ s.idle = s.afterPeriod) := by
  unfold State.idle
  split
  · next h =>
    simp only [Bool.and_eq_true, Bool.not_eq_true'] at h
    exact .inr ⟨h.1, h.2, rfl⟩
  · exact .inl rfl

/-- A period changes of a generator's record the prescale position alone, below the divider, or takes it to 0 with a
pulse-clock count to come (R117). -/
theorem Running.afterPeriod_cases (r : Running) :
    (r.prescale + 1 < r.divider ∧ r.afterPeriod = { r with prescale := r.prescale + 1 }) ∨
      (r.divider ≤ r.prescale + 1 ∧ r.afterPeriod = { r with prescale := 0, counting := true }) := by
  unfold Running.afterPeriod
  split
  · next h => exact .inl ⟨h, rfl⟩
  · next h => exact .inr ⟨Nat.le_of_not_lt h, rfl⟩

/-- A row of the tick that reaches an entry does nothing, or takes the tick that is on its way (R77). -/
theorem State.tickReachesEntry_cases (i : Slot) :
    (s.entryTicks[i] = false ∧ s.tickReachesEntry i = s) ∨
      (s.entryTicks[i] = true ∧
        s.tickReachesEntry i = ({ s with entryTicks := s.entryTicks.set i false } : State).entryTakesTick i) := by
  unfold State.tickReachesEntry
  split
  · next h => exact .inr ⟨h, rfl⟩
  · next h => exact .inl ⟨Bool.not_eq_true _ ▸ h, rfl⟩

/-! ## Ports -/

/-- The arrival of a frame leaves both ports as they are. -/
theorem State.frameArrives_ports (s : State) (c : Client) (f : FrameIn) :
    (s.frameArrives c f).portI = s.portI ∧ (s.frameArrives c f).portS = s.portS := by
  unfold State.frameArrives State.accept State.keepalive State.noteUnread
  repeat' split
  all_goals exact ⟨rfl, rfl⟩

/-- STOP and repeated START leave Port I without a transaction. -/
@[simp] theorem State.busStop_bus (s : State) : s.busStop.portI.bus = .idle := by
  unfold State.busStop
  repeat' split
  all_goals simp [State.frameArrives_ports]

/-- S_SEL_N rising leaves Port S without a window. -/
@[simp] theorem State.windowClose_window (s : State) : s.windowClose.portS.window = .closed := by
  unfold State.windowClose
  repeat' split
  all_goals simp [State.frameArrives_ports, State.noteDropped]

/-- S_SEL_N falling: the window is opening in operation, and none of the part's otherwise. -/
theorem State.windowOpen_portS (s : State) :
    s.windowOpen.portS = ⟨if s.windowClose.phase = .running then .opening else .closed, []⟩ := rfl

end Sys2Proof.Machine
end

