-- ==== Sys2Proof/WellFormed.lean ====
section
/-!
DEFINITION. Which commands the outside can send. Most operands are bounded by their types. What is left: an opener
suits the kind of window that the row names (Table 10-1), and a part that converts has a supply of at least 1.5 V,
below which it keeps no state (R174).
-/

namespace Sys2Proof

/-- The opener names a command window (Table 10-1). -/
def isCommandOpener (b : Byte) : Bool := 0xC0 ≤ b.toNat && b.toNat ≤ 0xC3

/-- The opener names a fetch window (Table 10-1). -/
def isFetchOpener (b : Byte) : Bool := 0x80 ≤ b.toNat && b.toNat ≤ 0x83

/-- A supply voltage at which the part keeps its state (R174), in microvolts. -/
def isWorkingSupply (vdd : Int) : Bool := 1500000 ≤ vdd

/-- The command is one that the outside can send. -/
def Instr.wellFormed : Instr → Bool
  | .portSCommandWindow (.opener b) => !isFetchOpener b
  | .portSFetchWindow (.opener b) => !isCommandOpener b
  | .sampleConversionEnd vdd => isWorkingSupply vdd
  | .conversionComplete vdd => isWorkingSupply vdd
  | _ => true

end Sys2Proof
end

