-- ==== Sys2Proof/Laws/PerInstr.lean ====
section
/-!
SUPPORT. A family of statements about every row of the opcode table as syntax (LAWS.json): a row takes at most one command
from one client (R182), and a row that takes a command is one that the outside can send.
-/

namespace Sys2Proof.Laws.OneCommand

open Sys2Proof.Machine

/-- The row is that of at most one command and one client, and then it is well formed and no reset row. -/
def Statement (i : Instr) : Prop :=
  ∀ (cmd : Command) (c : Client), cmd.row c = i →
    i.wellFormed = true ∧ isResetRow i = false ∧ ∀ (cmd' : Command) (c' : Client), cmd'.row c' = i → cmd' = cmd ∧ c' = c

/-- The command and the client of a command row. -/
def commandOf : Instr → Option (Command × Client)
  | .attach k => some (.attach, k)
  | .detach k => some (.detach, k)
  | .setAttention k => some (.setAttention, k)
  | .ping k => some (.ping, k)
  | .acquire k => some (.acquire, k)
  | .cancel k => some (.cancel, k)
  | .release k => some (.release, k)
  | .renew k => some (.renew, k)
  | .acknowledge k => some (.acknowledge, k)
  | .reconfigure k => some (.reconfigure, k)
  | .describe k => some (.describe, k)
  | .list k => some (.list, k)
  | .writeLevels k => some (.writeLevels, k)
  | .readLevels k => some (.readLevels, k)
  | .setWatch k => some (.setWatch, k)
  | .clearWatch k => some (.clearWatch, k)
  | .setPulse k => some (.setPulse, k)
  | .convert k => some (.convert, k)
  | .fetchNotice k => some (.fetchNotice, k)
  | .revoke k => some (.revoke, k)
  | .fence k => some (.fence, k)
  | .unfence k => some (.unfence, k)
  | .setIdlePlan k => some (.setIdlePlan, k)
  | .evict k => some (.evict, k)
  | .handOver k => some (.handOver, k)
  | .setTick k => some (.setTick, k)
  | .clearAll k => some (.clearAll, k)
  | .survey k => some (.survey, k)
  | .setConverter k => some (.setConverter, k)
  | _ => none

theorem commandOf_row (cmd : Command) (c : Client) : commandOf (cmd.row c) = some (cmd, c) := by cases cmd <;> rfl

/-- A row that is no command's row has nothing to show. -/
theorem of_no_command (i : Instr) (h : commandOf i = none) : Statement i := by
  rintro cmd c rfl
  simp [commandOf_row] at h

/-- A command's row determines the command and the client. -/
theorem row_injective (cmd cmd' : Command) (c c' : Client) (h : cmd'.row c' = cmd.row c) : cmd' = cmd ∧ c' = c := by
  have h := congrArg commandOf h
  simpa [commandOf_row] using h

/-- A command's row is well formed, and no reset row. -/
theorem of_command (cmd : Command) (c : Client) : Statement (cmd.row c) := by
  intro cmd₁ c₁ h₁
  exact ⟨by cases cmd <;> rfl, by cases cmd <;> rfl, fun cmd₂ c₂ h₂ => row_injective _ _ _ _ (h₂.trans h₁.symm)⟩

theorem portIWrite (e : BusWrite) : Statement (.portIWrite e) := of_no_command _ rfl

theorem portIRead (e : BusRead) : Statement (.portIRead e) := of_no_command _ rfl

theorem portSCommandWindow (e : WindowEvent) : Statement (.portSCommandWindow e) := of_no_command _ rfl

theorem portSFetchWindow (e : WindowEvent) : Statement (.portSFetchWindow e) := of_no_command _ rfl

theorem frameArrival (p : Port) : Statement (.frameArrival p) := of_no_command _ rfl

theorem attach (c : Client) : Statement (.attach c) := of_command .attach c

theorem detach (c : Client) : Statement (.detach c) := of_command .detach c

theorem setAttention (c : Client) : Statement (.setAttention c) := of_command .setAttention c

theorem ping (c : Client) : Statement (.ping c) := of_command .ping c

theorem acquire (c : Client) : Statement (.acquire c) := of_command .acquire c

theorem cancel (c : Client) : Statement (.cancel c) := of_command .cancel c

theorem release (c : Client) : Statement (.release c) := of_command .release c

theorem renew (c : Client) : Statement (.renew c) := of_command .renew c

theorem acknowledge (c : Client) : Statement (.acknowledge c) := of_command .acknowledge c

theorem reconfigure (c : Client) : Statement (.reconfigure c) := of_command .reconfigure c

theorem describe (c : Client) : Statement (.describe c) := of_command .describe c

theorem list (c : Client) : Statement (.list c) := of_command .list c

theorem writeLevels (c : Client) : Statement (.writeLevels c) := of_command .writeLevels c

theorem readLevels (c : Client) : Statement (.readLevels c) := of_command .readLevels c

theorem setWatch (c : Client) : Statement (.setWatch c) := of_command .setWatch c

theorem clearWatch (c : Client) : Statement (.clearWatch c) := of_command .clearWatch c

theorem setPulse (c : Client) : Statement (.setPulse c) := of_command .setPulse c

theorem convert (c : Client) : Statement (.convert c) := of_command .convert c

theorem fetchNotice (c : Client) : Statement (.fetchNotice c) := of_command .fetchNotice c

theorem revoke (c : Client) : Statement (.revoke c) := of_command .revoke c

theorem fence (c : Client) : Statement (.fence c) := of_command .fence c

theorem unfence (c : Client) : Statement (.unfence c) := of_command .unfence c

theorem setIdlePlan (c : Client) : Statement (.setIdlePlan c) := of_command .setIdlePlan c

theorem evict (c : Client) : Statement (.evict c) := of_command .evict c

theorem handOver (c : Client) : Statement (.handOver c) := of_command .handOver c

theorem setTick (c : Client) : Statement (.setTick c) := of_command .setTick c

theorem clearAll (c : Client) : Statement (.clearAll c) := of_command .clearAll c

theorem survey (c : Client) : Statement (.survey c) := of_command .survey c

theorem setConverter (c : Client) : Statement (.setConverter c) := of_command .setConverter c

theorem tick : Statement (.tick) := of_no_command _ rfl

theorem termTick (i : Slot) : Statement (.termTick i) := of_no_command _ rfl

theorem lapse (i : Slot) : Statement (.lapse i) := of_no_command _ rfl

theorem waitTick (i : Slot) : Statement (.waitTick i) := of_no_command _ rfl

theorem waitExpiry (i : Slot) : Statement (.waitExpiry i) := of_no_command _ rfl

theorem sessionCountTick (c : Client) : Statement (.sessionCountTick c) := of_no_command _ rfl

theorem sessionExpiry (c : Client) : Statement (.sessionExpiry c) := of_no_command _ rfl

theorem lineSample (driven level : LineSet) : Statement (.lineSample driven level) := of_no_command _ rfl

theorem generatorWrap (i : Slot) : Statement (.generatorWrap i) := of_no_command _ rfl

theorem acquisitionEnd (microvolts : Int) : Statement (.acquisitionEnd microvolts) := of_no_command _ rfl

theorem sampleConversionEnd (vdd : Int) : Statement (.sampleConversionEnd vdd) := of_no_command _ rfl

theorem conversionComplete (vdd : Int) : Statement (.conversionComplete vdd) := of_no_command _ rfl

theorem powerOnReset : Statement (.powerOnReset) := of_no_command _ rfl

theorem resetPinReset : Statement (.resetPinReset) := of_no_command _ rfl

theorem supplyLowReset : Statement (.supplyLowReset) := of_no_command _ rfl

theorem resetRelease (as1 as0 supv : Bool) : Statement (.resetRelease as1 as0 supv) := of_no_command _ rfl

theorem initializationEnd : Statement (.initializationEnd) := of_no_command _ rfl

theorem pulseClockCount (i : Slot) : Statement (.pulseClockCount i) := of_no_command _ rfl

theorem supplyLoss : Statement (.supplyLoss) := of_no_command _ rfl

end Sys2Proof.Laws.OneCommand
end

