-- ==== Sys2Proof/Tests/Slice0.lean ====
section
/-!
SUPPORT. Small tests of single steps, with the expected results of the guide's worked examples and tables (each test names
its section), the smoke tests of `wellFormed`, and for each obligation with hypotheses one theorem with states and operands
that meet them (`witness_…`).
-/

namespace Sys2Proof.Tests

open Sys2Proof Sys2Proof.Machine

set_option Elab.async false

/-! ## Ill formed commands are refused -/

theorem test_command_window_with_fetch_opener : (Instr.portSCommandWindow (.opener 0x81)).wellFormed = false := by decide

theorem test_fetch_window_with_command_opener : (Instr.portSFetchWindow (.opener 0xC1)).wellFormed = false := by decide

theorem test_conversion_without_supply : (Instr.sampleConversionEnd 1499999).wellFormed = false := by decide

theorem test_completion_without_supply : (Instr.conversionComplete 0).wellFormed = false := by decide

theorem test_lowest_supply_is_well_formed : (Instr.conversionComplete 1500000).wellFormed = true := by decide

/-! ## Small states -/

/-- The state after a row. -/
def after (row : Instr) (s : State) : State :=
  match exec row s with
  | .next t => t
  | .fault f => nomatch f
  | .refused _ => s

/-- The status code and the body of the response in a slot. -/
def reply (s : State) (c : Client) : Option (Byte × List Byte) :=
  match (s.slot c).state with
  | .ready r => some (r.status.code, r.body)
  | _ => none

/-- The reply of a row. -/
def replyOf (row : Instr) (s : State) (c : Client) : Option (Byte × List Byte) := reply (after row s) c

/-- A client's slot with an accepted command. -/
def sent (s : State) (c : Client) (cmd : Command) (tag : Byte) (body : List Byte) : State :=
  s.setSlot c ⟨.busy ⟨tag, cmd, body⟩, false, false⟩

theorem sent_sent (s : State) (c : Client) (cmd : Command) (tag : Byte) (body : List Byte) :
    Sent (sent s c cmd tag body) c cmd tag body := by
  simp [Sent, sent]

/-- The state and body of the reply to one command. -/
def ask (s : State) (c : Client) (cmd : Command) (body : List Byte) : Option (Byte × List Byte) :=
  replyOf (cmd.row c) (sent s c cmd 0 body) c

/-- The state after one command. -/
def did (s : State) (c : Client) (cmd : Command) (body : List Byte) : State := after (cmd.row c) (sent s c cmd 0 body)

/-- The part in operation, every client ATTACHED with epoch 7 and a timeout of 50 ticks, attention enabled. -/
def base : State :=
  { State.reset with phase := .running, clients := Vector.replicate 8 ⟨true, 7, 50, some 50, true, .noneYet⟩ }

/-- A line configuration. -/
def input (p : Pull) : LineConfig := ⟨.input, p, .low⟩

def pushPull (v : Level) : LineConfig := ⟨.pushPull, .none, v⟩

def analog : LineConfig := ⟨.analog, .none, .low⟩

def pulseHigh : LineConfig := ⟨.pulse, .none, .low⟩

def pulseLow : LineConfig := ⟨.pulse, .none, .high⟩

/-- A HELD part without pulses, watch or conversion. -/
def plain (configs : LineConfigs) (term : Nat) : Held := ⟨configs, none, term, none, none, .none, none⟩

/-- A HELD exclusive lease with its configurations. -/
def exclusive (owner : Client) (configs : LineConfigs) (term : Nat) : EntryBody :=
  .held ⟨owner, .exclusive, configs.map Prod.fst, term⟩ (plain configs term)

/-- A HELD shared lease. -/
def shared (owner : Client) (lines : List Line) (term : Nat) : EntryBody :=
  .held ⟨owner, .shared, lines, term⟩ (plain [] term)

/-- A WAITING exclusive entry without pulses or wait limit. -/
def waits (owner : Client) (configs : LineConfigs) (term arrival : Nat) : EntryBody :=
  .waiting ⟨owner, .exclusive, configs.map Prod.fst, term⟩ ⟨configs, none, none, none, arrival⟩

/-- A tombstone. -/
def tomb (owner : Client) (lines : List Line) (r : EndReason) : EntryBody :=
  .ended ⟨owner, .exclusive, lines, 9⟩ ⟨r, none⟩

/-- The part with some entries, at given generations. -/
def holding (es : List (Slot × Fin 8 × EntryBody)) (s : State) : State :=
  es.foldl (fun s e => s.setEntry e.1 ⟨e.2.1, e.2.2⟩) s

/-- The part with some lines at given effective configurations. -/
def wired (ps : LineConfigs) (s : State) : State := { s with effective := s.effectiveAfter ps }

/-- The part with some lines at given idle plan entries and effective configurations. -/
def planned (ps : LineConfigs) (s : State) : State :=
  { s with effective := s.effectiveAfter ps, idlePlan := s.effectiveAfter ps }

/-! ## Ports and frames (10.1 to 10.5) -/

theorem test_write_address_of_client_2 :
    (after (.portIWrite (.address 0x22)) (after (.portIWrite .start) base)).portI = ⟨.writing 2 ⟨[], 0⟩, true, []⟩ := by decide +kernel

theorem test_write_address_of_another_base_is_ignored :
    (after (.portIWrite (.address 0x28)) (after (.portIWrite .start) base)).portI = ⟨.idle, false, []⟩ := by decide +kernel

/-- The response to the PING of section 10.8. -/
def pong : Response := ⟨.ok, 0x01, ⟨false, false, true, false⟩, []⟩

theorem test_ping_response_bytes : pong.bytes = [0xC3, 0x04, 0x00, 0x01, 0x02, 0xD0] := by decide +kernel

theorem test_read_returns_the_slot_to_none_at_its_check_byte :
    let s := { base.setSlot 1 ⟨.ready pong, false, false⟩ with portI := ⟨.reading 1 ⟨[0xD0], true⟩, true, [0xC3]⟩ }
    ((after (.portIRead .clock) s).slot 1).state = .none ∧ (after (.portIRead .clock) s).portI.out = [0xC3, 0xD0] := by
  decide +kernel

theorem test_read_of_a_none_slot :
    (after (.portIRead (.address 0x23)) (after (.portIRead .start) base)).portI.bus = .reading 3 ⟨[0x00], false⟩ := by
  decide +kernel

theorem test_command_window_of_client_5 :
    (after (.portSCommandWindow (.opener 0xC1)) (after (.portSCommandWindow .select) base)).portS.window =
      .command 5 ⟨[], 0⟩ := by decide +kernel

theorem test_fetch_window_of_a_busy_slot :
    (after (.portSFetchWindow (.opener 0x83)) (after (.portSFetchWindow .select) (sent base 7 .ping 0 []))).portS.window =
      .fetch 7 ⟨[0x3C], false⟩ := by
  decide +kernel

/-- R178: after a reset in the middle of the opener, a window carries nothing, though its opener ends in operation. -/
theorem test_reset_within_the_opener :
    let s := after .resetPinReset (after (.portSFetchWindow .select) base)
    (after (.portSFetchWindow (.opener 0x83)) { s with phase := .running }).portS = ⟨.closed, []⟩ := by decide +kernel

/-- R176: after a reset in the middle of the address byte of a write, no address is acknowledged for want of a START. -/
theorem test_reset_within_the_address :
    let s := after .resetPinReset (after (.portIWrite .start) base)
    (after (.portIWrite (.address 0x20)) { s with phase := .running }).portI = ⟨.idle, false, []⟩ := by decide +kernel

/-- The frame of section 10.8: a PING of client 0 with tag 01h and epoch 01h. -/
def pingFrame : State :=
  let s := base.setClient 0 ⟨true, 1, 50, some 3, true, .noneYet⟩
  { s with portI := ⟨.writing 0 ⟨[0x04, 0x04, 0x01, 0x01, 0x99], 5⟩, true, []⟩ }

theorem test_ping_frame_is_accepted :
    ((after (.frameArrival .portI) pingFrame).slot 0).state = .busy ⟨0x01, .ping, []⟩ ∧
      ((after (.frameArrival .portI) pingFrame).client 0).count = some 50 := by decide +kernel

theorem test_damaged_frame_is_refused :
    let s := { pingFrame with portI := ⟨.writing 0 ⟨[0x04, 0x04, 0x04, 0x01, 0x99], 5⟩, true, []⟩ }
    reply (after (.frameArrival .portI) s) 0 = some (0x02, []) ∧
      ((after (.frameArrival .portI) s).client 0).count = some 3 := by decide +kernel

/-! ## Sessions (9.6, 2.9) -/

/-- Client 5 of section 9.6 after its expiry. -/
def expired : State := base.setClient 5 ⟨false, 7, 50, none, true, .timedOut⟩

theorem test_attach_after_expiry : ask expired 5 .attach [0, 50, 1] = some (0x00, [8, 1, 2, 0, 0x24, 0x01]) := by
  decide +kernel

theorem test_attach_opens_the_session :
    ((did expired 5 .attach [0, 50, 1]).client 5) = ⟨true, 8, 50, some 50, true, .timedOut⟩ := by decide +kernel

theorem test_detach_frees_every_entry :
    let s := holding [(13, 7, tomb 6 [3] .revoked), (9, 0, shared 6 [4] 9)] base
    (did s 6 .detach []).entry 13 = ⟨0, .free⟩ ∧ (did s 6 .detach []).entry 9 = ⟨1, .free⟩ := by decide +kernel

theorem test_set_attention_disables : ((did base 3 .setAttention [0]).client 3).attention = false := by decide +kernel

theorem test_ping_is_answered_with_its_flags :
    ((did base 0 .ping []).slot 0).state = .ready ⟨.ok, 0, ⟨false, false, true, false⟩, []⟩ := by decide +kernel

theorem test_evict_of_the_caller_is_refused : ask base 0 .evict [0] = some (0x15, []) := by decide +kernel

theorem test_hand_over_posts_to_the_new_supervisor :
    (did base 0 .handOver [4]).supervisor = 4 ∧ (did base 0 .handOver [4]).gained[4] = some 0 ∧
      (did base 0 .handOver [4]).attnS = true := by decide +kernel

/-! ## Leases (4.7, 2.9, 3.9) -/

/-- Idle plan of section 4.7. -/
def beforeGrant : State := planned [(1, input .down)] base

/-- The ACQUIRE of section 4.7: EXCLUSIVE, NO_WAIT, term 6, due mark 2, line 1 PUSH_PULL HIGH. -/
def acquireBody : List Byte := [0, 0, 1, 1, 0, 6, 0, 2, 1, 0x24]

theorem test_acquire_is_granted : ask beforeGrant 3 .acquire acquireBody = some (0x00, [0x00, 0, 6]) := by decide +kernel

theorem test_acquire_drives_its_line :
    let t := did beforeGrant 3 .acquire acquireBody
    t.effective[1] = pushPull .high ∧ (t.noticesOf 0).granted = true ∧
      (t.entry 0).body = .held ⟨3, .exclusive, [1], 6⟩ { plain [(1, pushPull .high)] 6 with due := some 2 } := by
  decide +kernel

theorem test_cancel_of_a_revoked_entry :
    ask (holding [(13, 7, tomb 6 [3] .revoked)] base) 6 .cancel [0xED] = some (0x0D, [2]) := by decide +kernel

/-- The lease of section 4.7 at some remaining term. -/
def warned (n : Nat) : State :=
  wired [(1, pushPull .high)]
    (holding [(8, 2, .held ⟨3, .exclusive, [1], 6⟩ { plain [(1, pushPull .high)] n with due := some 2 })] beforeGrant)

theorem test_renew_restores_the_term : ask (warned 2) 3 .renew [0x48] = some (0x00, [0, 6, 0, 6, 0, 2, 3]) := by
  decide +kernel

theorem test_renew_with_a_shorter_term : ask (warned 2) 3 .renew [0x48, 0, 4] = some (0x00, [0, 4, 0, 4, 0, 0, 3]) := by
  decide +kernel

/-- The ACKNOWLEDGE of section 2.9, step 4. -/
def lapsed : State := (holding [(20, 1, tomb 6 [3] .lapsed)] base).postEnded 20 .lapsed

theorem test_acknowledge_retires_the_tombstone :
    ask lapsed 6 .acknowledge [0x34] = some (0x00, [1]) ∧ (did lapsed 6 .acknowledge [0x34]).entry 20 = ⟨2, .free⟩ ∧
      (did lapsed 6 .acknowledge [0x34]).noticesOf 20 = PendingSet.empty := by decide +kernel

theorem test_revoke_of_a_waiting_entry :
    let s := { holding [(13, 7, waits 6 [(3, input .none)] 9 1)] base with waitList := [13] }
    ask s 0 .revoke [0xED] = some (0x00, [1, 6]) ∧
      (did s 0 .revoke [0xED]).waitList = [] := by decide +kernel

/-- Section 3.9: the holders and the wait list before the release. -/
def fourWaiters : State :=
  let cfg (a b : Line) : LineConfigs := [(a, pulseHigh), (b, pulseHigh)]
  let s := planned [(3, input .up)] base
  let s := wired [(3, pushPull .high), (8, pulseHigh), (9, pulseHigh), (12, pulseHigh)] s
  let s := holding
    [(2, 4, .held ⟨1, .exclusive, [3, 8, 9], 90⟩
        ⟨(3, pushPull .high) :: cfg 8 9, some ⟨⟨1, 10, [5, 5]⟩, [0, 1], none⟩, 50, none, none, .none, none⟩),
      (7, 0, .held ⟨4, .exclusive, [12], 90⟩
        ⟨[(12, pulseHigh)], some ⟨⟨1, 10, [5]⟩, [2], none⟩, 50, none, none, .none, none⟩),
      (9, 0, .waiting ⟨5, .exclusive, [10, 11], 90⟩ ⟨cfg 10 11, some ⟨1, 10, [5, 5]⟩, none, none, 1⟩),
      (10, 3, .waiting ⟨6, .shared, [3], 90⟩ ⟨[], none, none, some ⟨40, 5⟩, 2⟩),
      (11, 1, .waiting ⟨0, .exclusive, [13], 90⟩ ⟨[(13, pulseHigh)], some ⟨1, 10, [5]⟩, none, none, 3⟩),
      (12, 2, waits 7 [(3, pushPull .low)] 90 4)] s
  { s with
    waitList := [9, 10, 11, 12]
    generators := ⟨#[.running ⟨2, 8, 1, 10, 5, 0, 0, false⟩, .running ⟨2, 9, 1, 10, 5, 0, 0, false⟩,
      .running ⟨7, 12, 1, 10, 5, 0, 0, false⟩, .free], rfl⟩ }

theorem test_release_grants_three_of_four_waiters :
    let t := did fourWaiters 1 .release [0x82]
    ask fourWaiters 1 .release [0x82] = some (0x00, []) ∧ t.waitList = [12] ∧ t.entry 2 = ⟨5, .free⟩ ∧
      t.effective[3] = input .up ∧
      t.generators.toList.map (fun g => g.record.map fun r => (r.slot, r.line)) =
        [some (9, 10), some (9, 11), some (7, 12), some (11, 13)] := by decide +kernel

theorem test_list_of_another_scope_needs_supervision : ask base 6 .list [1] = some (0x07, []) := by decide +kernel

theorem test_list_of_the_callers_entries : ask lapsed 6 .list [0] = some (0x00, [1, 0x34, 3]) := by decide +kernel

theorem test_describe_record_of_a_tombstone :
    ask lapsed 6 .describe [0x34, 0] = some (0x00, [0, 1, 3, 6, 0, 0, 9, 0, 0, 0, 0, 0, 0, 0, 0, 0, 1, 0, 0]) := by
  decide +kernel

theorem test_clear_all_frees_every_entry :
    ask fourWaiters 0 .clearAll [] = some (0x00, [6, 0xFE]) ∧ (did fourWaiters 0 .clearAll []).waitList = [] := by
  decide +kernel

/-! ## Ticks (4.7, 9.6, 3.6) -/

/-- A tick, emitted at the end of an interval of 10 ms and on its way to every record. -/
def ticking (s : State) : State := after .tick { s with tickPosition := 80000 }

theorem test_tick_ends_the_interval :
    (ticking base).tickPosition = 0 ∧ (ticking base).entryTicks[31] = true ∧
      after .tick { base with tickPosition := 79999 } = { base with tickPosition := 79999 } := by decide +kernel

/-- Section 4.1.1: a SET TICK taken first discards the tick of the interval in progress. -/
theorem test_set_tick_discards_the_tick :
    (after .tick (did { base with tickPosition := 80000 } 0 .setTick [3])).entryTicks[31] = false := by decide +kernel

theorem test_no_time_passes_before_a_tick_has_arrived :
    (ticking base).idle = ticking base ∧
      ({ ticking base with clientTicks := Vector.replicate 8 false } : State).idle.tickPosition = 1 ∧
      ({ ticking base with clientTicks := Vector.replicate 8 false } : State).idle.entryTicks[31] = false := by
  decide +kernel

theorem test_term_tick_posts_due :
    let t := after (.termTick 8) (ticking (warned 3))
    (t.noticesOf 8).due = true ∧ (t.entry 8).body = (warned 2).entries[8].body := by decide +kernel

theorem test_lapse_leaves_a_tombstone :
    let t := after (.lapse 8) (ticking (warned 1))
    t.entry 8 = ⟨2, .ended ⟨3, .exclusive, [1], 6⟩ ⟨.lapsed, none⟩⟩ ∧ t.effective[1] = input .down ∧
      (t.noticesOf 8).ended = some .lapsed := by decide +kernel

/-- A waiting entry with some remaining wait, behind a holder. -/
def waiting (n : Nat) : State :=
  { holding [(0, 0, exclusive 1 [(3, input .none)] 90),
      (10, 3, .waiting ⟨6, .shared, [3], 90⟩ ⟨[], none, none, some ⟨40, n⟩, 2⟩)] base with waitList := [10] }

theorem test_wait_tick_counts : (after (.waitTick 10) (ticking (waiting 5))).entry 10 = (waiting 4).entry 10 := by
  decide +kernel

theorem test_wait_expiry_leaves_a_tombstone :
    let t := after (.waitExpiry 10) (ticking (waiting 1))
    t.entry 10 = ⟨3, .ended ⟨6, .shared, [3], 90⟩ ⟨.waitExpired, none⟩⟩ ∧ t.waitList = [] := by decide +kernel

theorem test_session_count_tick : ((after (.sessionCountTick 5) (ticking base)).client 5).count = some 49 := by
  decide +kernel

/-- Client 5 of section 9.6 one tick before its session expires. -/
def failing : State :=
  (holding [(15, 3, tomb 5 [7] .lapsed)] (base.setClient 5 ⟨true, 7, 50, some 1, true, .noneYet⟩)).postEnded 15 .lapsed

theorem test_session_expiry_tears_down :
    let t := after (.sessionExpiry 5) (ticking failing)
    t.client 5 = ⟨false, 7, 50, none, true, .timedOut⟩ ∧ t.entry 15 = ⟨4, .free⟩ ∧ t.attnS = false := by decide +kernel

/-! ## Lines and watches (1.7, 5.8, 7.10) -/

/-- Section 1.7: the state before step 2, with a request of line 18 in flight. -/
def twoHolders : State :=
  let s := planned [(11, input .up), (18, analog)] base
  let s := wired [(11, pushPull .high)] s
  let s := holding [(3, 0, exclusive 4 [(11, pushPull .high)] 90),
    (6, 1, .held ⟨5, .shared, [18], 90⟩ { plain [] 90 with conv := .inFlight })] s
  { s with inFlight := some ⟨⟨6, 18, 4⟩, 1, 600, .internal, .us8, false, false, .acquiring, 0⟩ }

/-- SET IDLE PLAN of section 1.7: line 11 OPEN_DRAIN UP HIGH, line 18 OPEN_DRAIN NONE LOW. -/
def planBody : List Byte := [11, 0x4C, 18, 0x40]

theorem test_idle_plan_changes_at_once_or_behind_a_lease :
    ask twoHolders 0 .setIdlePlan planBody = some (0x00, [0x04, 0, 0, 0, 0x08, 0]) := by decide +kernel

theorem test_idle_plan_disturbs_the_conversion :
    let t := did twoHolders 0 .setIdlePlan planBody
    t.effective[11] = pushPull .high ∧ t.effective[18] = ⟨.openDrain, .none, .low⟩ ∧
      t.inFlight.map InFlight.disturbed = some true := by decide +kernel

theorem test_reconfigure_disturbs_the_conversion :
    let s := wired [(16, analog)] (holding [(3, 0, exclusive 1 [(16, analog)] 90)] base)
    let s := { s with inFlight := some ⟨⟨3, 16, 4⟩, 2, 1226, .internal, .us8, false, false, .converting 5, 0⟩ }
    (did s 1 .reconfigure [0x03, 16, 0x00]).inFlight.map InFlight.disturbed = some true ∧
      (did s 1 .reconfigure [0x03, 16, 0x00]).effective[16] = input .none := by decide +kernel

/-- The lease of section 5.8, with its watch in a given filter state. -/
def alert (a4 a5 : Level × Nat) (out : Level) : State :=
  let cfgs : LineConfigs := [(4, ⟨.openDrain, .up, .high⟩), (5, pushPull out)]
  let w : Watch := ⟨3, [⟨4, .falling, a4.1, a4.2⟩, ⟨5, .both, a5.1, a5.2⟩]⟩
  let s := wired cfgs (holding [(14, 1, .held ⟨2, .exclusive, [4, 5], 90⟩ { plain cfgs 90 with watch := some w })] base)
  { s with lastSample := s.lastSample.set 4 .high, samplePosition := 8000 }

theorem test_set_watch_arms_at_the_last_samples :
    ask (alert (.low, 2) (.high, 1) .low) 2 .setWatch [0x2E, 3, 4, 2, 5, 3] = some (0x00, [2, 4, 1, 5, 0]) ∧
      ((did (alert (.low, 2) (.high, 1) .low) 2 .setWatch [0x2E, 3, 4, 2, 5, 3]).entry 14).body =
        ((alert (.high, 0) (.low, 0) .low).entry 14).body := by decide +kernel

theorem test_sample_5_posts_edge :
    let t := after (.lineSample 0x10 0) (alert (.high, 2) (.low, 0) .high)
    (t.noticesOf 14).edge = some ⟨0x10, 1⟩ ∧ (t.entry 14).body = ((alert (.low, 0) (.low, 1) .high).entry 14).body := by
  decide +kernel

theorem test_sample_7_joins_the_edge :
    let s := (alert (.low, 0) (.low, 2) .high).setNotices 14 { PendingSet.empty with edge := some ⟨0x10, 1⟩ }
    let t := after (.lineSample 0 0) s
    (t.noticesOf 14).edge = some ⟨0x30, 2⟩ ∧ (t.entry 14).body = ((alert (.low, 1) (.high, 0) .high).entry 14).body := by
  decide +kernel

theorem test_no_sample_before_its_moment :
    let s := { alert (.high, 2) (.low, 0) .high with samplePosition := 7999 }
    after (.lineSample 0x10 0) s = s := by decide +kernel

theorem test_write_levels_drives_the_line :
    (did (alert (.high, 2) (.low, 0) .low) 2 .writeLevels [0x2E, 5, 1]).effective[5] = pushPull .high := by decide +kernel

theorem test_read_levels_reports_samples_and_stable_levels :
    let s := alert (.high, 0) (.high, 0) .high
    ask { s with lastSample := s.lastSample.set 5 .high } 2 .readLevels [0x2E] = some (0x00, [2, 4, 7, 5, 7]) := by
  decide +kernel

theorem test_clear_watch_reports_the_watch :
    ask (alert (.high, 0) (.high, 0) .high) 2 .clearWatch [0x2E] = some (0x00, [1]) := by decide +kernel

theorem test_survey_of_bank_a :
    (ask (alert (.high, 0) (.high, 0) .high) 0 .survey [0]).map (fun r => (r.2.drop 9).take 4) =
      some [0x4C, 0x42, 0x20, 0x42] := by decide +kernel

theorem test_fence_reports_new_and_all :
    ask { base with fences := 0x10 } 0 .fence [4, 23] = some (0x00, [0x80, 0, 0, 0x80, 0, 0x10]) := by decide +kernel

theorem test_unfence_grants_a_waiter :
    let s := { holding [(0, 0, waits 1 [(4, input .none)] 9 1)] base with waitList := [0], fences := 0x10 }
    ask s 0 .unfence [4] = some (0x00, [0, 0, 0x10, 0, 0, 0]) ∧ (did s 0 .unfence [4]).waitList = [] := by decide +kernel

theorem test_set_tick_of_a_code_above_7 : ask base 0 .setTick [8] = some (0x08, []) := by decide +kernel

theorem test_set_tick_restarts_the_interval :
    let t := did { base with tickPosition := 5 } 0 .setTick [0]
    t.tickRate = 0 ∧ t.tickPosition = 0 ∧ tickPeriods 0 = 8000 ∧ tickPeriods 7 = 1600000 := by decide +kernel

/-! ## Pulse bank (6.7) -/

/-- The lease of section 6.7 at some count, with a pulse-clock count to be taken, and with a pending update. -/
def fans (count : Nat) (u : Option PulseUpdate) : State :=
  let cfgs : LineConfigs := [(10, pulseHigh), (13, pulseLow)]
  let s := wired cfgs (holding [(17, 4, .held ⟨5, .exclusive, [10, 13], 400⟩
    ⟨cfgs, some ⟨⟨8, 1000, [250, 500]⟩, [1, 2], u⟩, 400, none, none, .none, none⟩)] base)
  { s with generators :=
      ⟨#[.free, .running ⟨17, 10, 8, 1000, 250, count, 0, true⟩, .running ⟨17, 13, 8, 1000, 500, count, 0, true⟩, .free], rfl⟩ }

/-- The first pending update of section 6.7. -/
def slower : PulseUpdate := ⟨⟨8, 2000, [1000, 1000]⟩, false, true, true⟩

/-- The second pending update of section 6.7. -/
def faster : PulseUpdate := ⟨⟨4, 1000, [250, 500]⟩, true, false, false⟩

theorem test_first_set_pulse :
    ask (fans 300 none) 5 .setPulse [0x91, 6, 0x07, 0xD0, 0x03, 0xE8, 0x03, 0xE8] = some (0x00, [0, 0x02, 0xBC]) ∧
      ((did (fans 300 none) 5 .setPulse [0x91, 6, 0x07, 0xD0, 0x03, 0xE8, 0x03, 0xE8]).entry 17) =
        (fans 300 (some slower)).entry 17 := by decide +kernel

theorem test_second_set_pulse :
    ask (fans 600 (some slower)) 5 .setPulse [0x91, 1, 4] = some (0x00, [1, 0x01, 0x90]) ∧
      ((did (fans 600 (some slower)) 5 .setPulse [0x91, 1, 4]).entry 17) = (fans 600 (some faster)).entry 17 := by
  decide +kernel

theorem test_wrap_applies_the_update :
    let t := after (.generatorWrap 17) (fans 999 (some faster))
    t.generators[1] = .running ⟨17, 10, 4, 1000, 250, 0, 0, false⟩ ∧
      t.generators[2] = .running ⟨17, 13, 4, 1000, 500, 0, 0, false⟩ ∧
      (t.noticesOf 17).pulseApplied = true := by decide +kernel

theorem test_count_advances_the_group :
    (after (.pulseClockCount 17) (fans 499 none)).generators[2] = .running ⟨17, 13, 8, 1000, 500, 500, 0, false⟩ ∧
      after (.pulseClockCount 17) (after (.pulseClockCount 17) (fans 499 none)) =
        after (.pulseClockCount 17) (fans 499 none) := by
  decide +kernel

theorem test_prescale_returns_to_0_at_the_divider :
    Running.afterPeriod ⟨17, 13, 8, 1000, 500, 3, 6, false⟩ = ⟨17, 13, 8, 1000, 500, 3, 7, false⟩ ∧
      Running.afterPeriod ⟨17, 13, 8, 1000, 500, 3, 7, false⟩ = ⟨17, 13, 8, 1000, 500, 3, 0, true⟩ ∧
      Running.afterPeriod ⟨17, 13, 1, 1000, 500, 3, 0, false⟩ = ⟨17, 13, 1, 1000, 500, 3, 0, true⟩ := by decide +kernel

theorem test_outputs_follow_polarity :
    (fans 249 none).lineDriver 10 = .drives .high ∧ (fans 250 none).lineDriver 10 = .drives .low ∧
      (fans 499 none).lineDriver 13 = .drives .low ∧ (fans 500 none).lineDriver 13 = .drives .high := by decide +kernel

/-! ## Converter (7.10, 7.1) -/

/-- Section 7.10: the requests of slots 3, 5, 6 and 9, with sample 4 of slot 3 at the end of a given phase. -/
def fourRequests (phase : ConvPhase) : State :=
  let s := planned [(20, analog)] base
  let with9 : Held := { plain [] 90 with conv := .queued }
  let s := holding
    [(3, 0, .held ⟨1, .exclusive, [16], 90⟩ { plain [(16, input .none)] 90 with conv := .inFlight }),
      (5, 2, .held ⟨2, .shared, [17], 90⟩ with9), (6, 1, .held ⟨4, .shared, [17], 90⟩ with9),
      (9, 0, .held ⟨6, .shared, [20], 90⟩ with9)] s
  { s with
    convQueue := [⟨5, 17, 2⟩, ⟨6, 17, 1⟩, ⟨9, 20, 8⟩]
    inFlight := some ⟨⟨3, 16, 4⟩, 3, 1839, .internal, .us8, true, false, phase,
      match phase with | .acquiring => 64 | .converting _ => 96⟩ }

theorem test_disconnected_line_holds_ground :
    (after (.acquisitionEnd 1200000) (fourRequests .acquiring)).inFlight.map InFlight.phase = some (.converting 0) := by
  decide +kernel

theorem test_completion_delivers_and_starts :
    let t := after (.conversionComplete 3300000) (fourRequests (.converting 0))
    (t.entry 3).body.result = some ⟨16, some 459, .disturbed, false⟩ ∧
      (t.entry 5).body.result = some ⟨17, none, .modeLost, false⟩ ∧
      (t.entry 6).body.result = some ⟨17, none, .modeLost, false⟩ ∧ t.convQueue = [] ∧
      t.inFlight.map (fun f => (f.request, f.done)) = some (⟨9, 20, 8⟩, 0) := by decide +kernel

theorem test_sample_end_adds_its_code :
    let s := wired [(16, analog)] base
    let s := { s with inFlight := some ⟨⟨3, 16, 4⟩, 1, 612, .supply, .us8, false, false, .converting 1650000, 96⟩ }
    (after (.sampleConversionEnd 3300000) s).inFlight.map (fun f => (f.done, f.sum, f.phase)) =
      some (2, 1124, .acquiring) := by decide +kernel

theorem test_codes_of_the_internal_reference :
    codeOf 2048000 2048000 = 1023 ∧ codeOf 2046000 2048000 = 1023 ∧ codeOf 2045999 2048000 = 1022 ∧
      codeOf 0 2048000 = 0 ∧ codeOf (-5) 2048000 = 0 := by decide +kernel

theorem test_convert_is_queued :
    let s := fourRequests .acquiring
    let s := holding [(2, 0, shared 7 [20] 90)] { s with convQueue := [] }
    ask s 7 .convert [0x02, 20, 8] = some (0x00, [1]) := by decide +kernel

theorem test_convert_of_a_lease_in_flight_is_busy :
    let s := wired [(16, analog)] (fourRequests .acquiring)
    ask s 1 .convert [0x03, 16, 4] = some (0x10, []) := by decide +kernel

theorem test_set_converter : ask base 0 .setConverter [1, 3] = some (0x00, [1, 3]) := by decide +kernel

/-! ## Notices (8.7) -/

/-- Section 8.7 before the first fetch: slot 2 with CONVERTED, slot 7 with EDGE. -/
def collecting : State :=
  let result : ConvResult := ⟨16, some 380, .ok, false⟩
  let s := holding
    [(2, 0, .held ⟨1, .exclusive, [6, 16], 90⟩ { plain [(6, input .none), (16, analog)] 90 with result := some result }),
      (7, 3, shared 1 [2, 3] 90)] base
  (s.setNotices 2 { PendingSet.empty with converted := true }).setNotices 7
    { PendingSet.empty with edge := some ⟨0x0C, 2⟩ }

theorem test_fetch_returns_the_conversion :
    ask collecting 1 .fetchNotice [] = some (0x00, [0x82, 0x02, 2, 0x10, 16, 0, 0x01, 0x7C]) ∧
      (did collecting 1 .fetchNotice []).cursors[1] = 2 := by decide +kernel

theorem test_fetch_goes_on_from_the_cursor :
    ask { collecting with cursors := collecting.cursors.set 1 2 } 1 .fetchNotice [] =
      some (0x00, [0x82, 0x67, 2, 0x08, 0, 0, 0x0C, 2]) := by decide +kernel

/-! ## Resets (9.5) -/

theorem test_power_on_reset : after .powerOnReset base = { State.reset with phase := .inReset } := by decide +kernel

theorem test_reset_pin_reset_records_its_cause : (after .resetPinReset fourWaiters).cause = .resetPin := by decide +kernel

theorem test_supply_low_reset_during_a_reset_keeps_the_cause :
    (after .supplyLowReset (after .resetPinReset base)).cause = .resetPin := by decide +kernel

theorem test_supply_loss_records_power_on : (after .supplyLoss base).cause = .powerOn := by decide +kernel

theorem test_reset_release_samples_the_straps :
    let t := after (.resetRelease true false true) (after .resetPinReset base)
    t.supervisor = 4 ∧ baseAddress t.straps = 0x50 ∧ t.phase = .initializing 0 := by decide +kernel

theorem test_initialization_end :
    (after .initializationEnd { State.reset with phase := .initializing 16000 }).phase = .running ∧
      after .initializationEnd State.reset = State.reset := by decide +kernel

/-! ## States and operands that meet the hypotheses of each obligation -/

/-- A law-abiding part with an entry in each state, two generators, a watch, a conversion in flight and one queued. -/
def demo : State :=
  let cfgs : LineConfigs := [(8, pulseHigh), (9, pulseLow), (16, analog)]
  let s := planned [(18, analog)] base
  let s := wired cfgs s
  let s := holding
    [(0, 2, .held ⟨1, .exclusive, [8, 9, 16], 9⟩
        ⟨cfgs, some ⟨⟨1, 4, [2, 4]⟩, [0, 1], some ⟨⟨2, 4, [2, 4]⟩, true, false, false⟩⟩, 3, some 2,
          some ⟨2, [⟨8, .both, .low, 1⟩, ⟨16, .rising, .low, 0⟩]⟩, .inFlight, some ⟨16, some 7, .ok, true⟩⟩),
      (1, 0, .waiting ⟨2, .exclusive, [8], 9⟩ ⟨[(8, input .none)], none, none, some ⟨5, 2⟩, 1⟩),
      (2, 1, tomb 1 [3] .lapsed), (3, 0, .held ⟨2, .shared, [18], 9⟩ { plain [] 1 with conv := .queued })] s
  let s := (s.setNotices 0 { PendingSet.empty with converted := true }).postEnded 2 .lapsed
  { s with
    waitList := [1], attnI := true
    generators := ⟨#[.running ⟨0, 8, 1, 4, 2, 3, 0, true⟩, .running ⟨0, 9, 1, 4, 4, 3, 0, true⟩, .free, .free], rfl⟩
    convQueue := [⟨3, 18, 1⟩]
    inFlight := some ⟨⟨0, 16, 2⟩, 1, 600, .internal, .us8, false, false, .converting 5, 96⟩
    pending := [.portIRead .stop] }

/-- The claim of slot 0 of `demo`. -/
def demoClaim : Claim := ⟨1, .exclusive, [8, 9, 16], 9⟩

theorem entry_sent (s : State) (c : Client) (cmd : Command) (tag : Byte) (body : List Byte) (i : Slot) :
    (sent s c cmd tag body).entry i = s.entry i := rfl

/-- A check that can be evaluated to its result. -/
theorem ok_of {ε α : Type} {x : Except ε α} {a : α} (h : x.toOption = some a) : x = .ok a := by
  cases x with
  | error e => exact nomatch h
  | ok b => rw [Option.some.inj h]

/-- The refusal of a check. -/
def refusalOf {ε α : Type} : Except ε α → Option ε
  | .error e => some e
  | .ok _ => none

theorem error_of {ε α : Type} {x : Except ε α} {e : ε} (h : refusalOf x = some e) : x = .error e := by
  cases x with
  | error e' => rw [Option.some.inj h]
  | ok b => exact nomatch h

/-- A command that its client sends on an entry of its own, with the handle first. -/
theorem names_own (s : State) (c : Client) (i : Slot) (h : Byte) (h₁ : h = handleByte (s.entry i).generation i)
    (h₂ : (s.entry i).body.ownedBy c = true) : Names s c h i := ⟨h₁, h₂⟩

theorem witness_FrontCommandRuns : demo.pending = Instr.portIRead .stop :: [] := rfl

theorem witness_EmptyQueuePassesOnePeriod :
    (base.pending = [] ∧ base.phase.active = true ∧ base.someDue = false) ∧
      (State.pending (after .powerOnReset base) = [] ∧ (after .powerOnReset base).phase.active = false) ∧
      (State.pending { base with tickPosition := 80000 } = [] ∧ State.someDue { base with tickPosition := 80000 } = true) := by
  decide +kernel

/-- The straps both read 1, and a START has come on Port I. -/
def strapped : State := { base with straps := ⟨true, true, false⟩, portI := ⟨.addressing, false, []⟩ }

/-- A START has come on Port I in the initialization period. -/
def early : State := { State.reset with portI := ⟨.addressing, false, []⟩ }

theorem witness_BusWriteCollectsFrame :
    (strapped.phase = .running ∧ strapped.portI.bus = .addressing ∧
      (0x5B#7).toNat = (if strapped.straps.as1 then 0x50 else 0x20) + (if strapped.straps.as0 then 8 else 0) + 3) ∧
    (early.portI.bus = .addressing ∧ early.phase ≠ .running) ∧
    (strapped.portI.bus = .addressing ∧ ∀ k : Nat, k ≤ 3 → (0x5C#7).toNat ≠
      (if strapped.straps.as1 then 0x50 else 0x20) + (if strapped.straps.as0 then 8 else 0) + k) ∧
    (∃ t, exec (.frameArrival .portI) pingFrame = .next t) ∧
    (∃ c f, pingFrame.portI.bus = .writing c f) ∧ (∀ c f, base.portI.bus ≠ .writing c f) ∧
    ((∃ t, exec .supplyLowReset strapped = .next t) ∧ isResetRow .supplyLowReset = true ∧ strapped.phase.active = true) ∧
    (∃ t, exec (.portIWrite (.address 0x20)) base = .next t) ∧ base.portI.bus = .idle := by
  exact ⟨by decide +kernel, by decide +kernel, by decide +kernel, ⟨_, rfl⟩, ⟨_, _, rfl⟩, fun _ _ h => (nomatch h),
    ⟨⟨_, rfl⟩, rfl, rfl⟩, ⟨_, rfl⟩, rfl⟩

/-- Port I with a read of client 1 under way. -/
def reading (r : ReadOut) : State := { base with portI := ⟨.reading 1 r, true, []⟩ }

theorem witness_BusReadShiftsSlotOut :
    (strapped.portI.bus = .addressing ∧ base.portI.bus ≠ .addressing) ∧
    ((reading ⟨[0xD0], true⟩).portI.bus = .reading 1 ⟨[0xD0], true⟩ ∧ (reading ⟨[], false⟩).portI.bus = .reading 1 ⟨[], false⟩) ∧
    ∀ c r, base.portI.bus ≠ .reading c r :=
  ⟨by decide +kernel, ⟨rfl, rfl⟩, fun _ _ h => nomatch h⟩

/-- Port S with some window. -/
def windowed (w : WindowState) : State := { base with portS := ⟨w, [0xFF]⟩ }

theorem witness_WindowsFollowTheirOpener :
    ((windowed .opening).portS.window = .opening ∧ (0xC3#8).toNat = 0xC0 + ((7 : Client).val - 4) ∧
      (0x80#8).toNat = 0x80 + ((4 : Client).val - 4)) ∧
    ((∃ t, exec .resetPinReset (windowed .opening) = .next t) ∧ isResetRow .resetPinReset = true ∧
      (windowed .opening).phase.active = true) ∧
    ((∃ t, exec (.portSFetchWindow (.opener 0x80)) base = .next t) ∧ base.portS.window = .closed) ∧
    (¬(0xC0 ≤ (0xBF#8).toNat ∧ (0xBF#8).toNat ≤ 0xC3) ∧ ¬(0x80 ≤ (0x84#8).toNat ∧ (0x84#8).toNat ≤ 0x83)) ∧
    ((windowed (.command 4 ⟨[], 0⟩)).portS.window = .command 4 ⟨[], 0⟩ ∧
      (windowed .ignored).portS.window = .ignored ∧
      (windowed (.fetch 7 ⟨[0xD0], true⟩)).portS.window = .fetch 7 ⟨[0xD0], true⟩ ∧
      (windowed (.fetch 7 ⟨[], true⟩)).portS.window = .fetch 7 ⟨[], true⟩) ∧
    ∃ t, exec (.frameArrival .portS) base = .next t := by
  exact ⟨by decide +kernel, ⟨⟨_, rfl⟩, rfl, rfl⟩, ⟨⟨_, rfl⟩, rfl⟩, by decide +kernel, by decide +kernel, ⟨_, rfl⟩⟩

theorem witness_ArrivingFrameIsChecked :
    (FrameIn.well ⟨[1, 2, 3, 4], 4⟩ = true ∧ FrameIn.well ⟨List.replicate 45 0, 46⟩ = true) ∧
    (pingFrame.portI.bus = .writing 0 ⟨[0x04, 0x04, 0x01, 0x01, 0x99], 5⟩ ∧ (pingFrame.slot 0).state.isBusy = false ∧
      pingFrame.frameCheck 0 ⟨[0x04, 0x04, 0x01, 0x01, 0x99], 5⟩ = .ok ⟨0x01, .ping, []⟩ ∧
      pingFrame.frameCheck 0 ⟨[0x04, 0x04, 0x04, 0x01, 0x99], 5⟩ = .error .badCheck) ∧
    ((windowed (.command 4 ⟨[], 0⟩)).portS.window = .command 4 ⟨[], 0⟩ ∧
      ((sent (windowed (.command 4 ⟨[1], 1⟩)) 4 .ping 0 []).slot 4).state.isBusy = true) ∧
    (∀ c f, base.portI.bus ≠ .writing c f) ∧ ∀ c f, base.portS.window ≠ .command c f := by
  exact ⟨by decide +kernel, ⟨rfl, by decide +kernel, ok_of (by decide +kernel), error_of (by decide +kernel)⟩,
    by decide +kernel, fun _ _ h => (nomatch h), fun _ _ h => (nomatch h)⟩

theorem witness_LayoutsAreThoseOfTheTables : commandOfByte 0x49 = some .setConverter := by decide +kernel

theorem witness_EveryCommandIsAnswered :
    (Sent (sent demo 1 .ping 7 []) 1 .ping 7 [] ∧ ∃ t, exec (Command.ping.row 1) (sent demo 1 .ping 7 []) = .next t) ∧
      ∀ tag body, ¬Sent base 1 .ping tag body := by
  refine ⟨⟨sent_sent .., ⟨_, rfl⟩⟩, fun tag body h => ?_⟩
  have : (base.slot 1).state = .none := by decide +kernel
  rw [Sent, this] at h
  exact nomatch h

theorem witness_SupervisorRightsComeFirst :
    (.fence ∈ supervisorCommands ∧ (sent demo 1 .fence 7 [9, 9]).supervisor ≠ 1 ∧
      Sent (sent demo 1 .fence 7 [9, 9]) 1 .fence 7 [9, 9]) ∧
    (sent demo 7 .list 7 [0x01]).supervisor ≠ 7 ∧ Sent (sent demo 7 .list 7 [0x01]) 7 .list 7 [0x01] :=
  ⟨⟨by decide, by decide +kernel, sent_sent ..⟩, by decide +kernel, sent_sent ..⟩

theorem witness_HandleChecksComeInOrder :
    (Sent (sent demo 1 .renew 7 [0x1F]) 1 .renew 7 [0x1F] ∧ NamesHandle .renew 0x1F [0x1F] ∧ (31 : Slot).val = (0x1F#8).toNat % 32 ∧
      (demo.entry 31).body = .free) ∧
    ((0 : Slot).val = (0x00#8).toNat % 32 ∧ (demo.entry 0).generation.val ≠ (0x00#8).toNat / 32) ∧
    ((demo.entry 0).generation.val = (0x40#8).toNat / 32 ∧
      (∃ cl, (demo.entry 0).body.claim = some cl ∧ cl.owner ≠ 2) ∧ ∃ cl hd, (demo.entry 0).body = .held cl hd ∧ cl.owner = 1) ∧
    ((∃ cl w, (demo.entry 1).body = .waiting cl w ∧ cl.owner = 2) ∧ (demo.entry 1).generation.val = (0x01#8).toNat / 32) ∧
    ((∃ cl t, (demo.entry 2).body = .ended cl t ∧ cl.owner = 1) ∧ (demo.entry 2).generation.val = (0x22#8).toNat / 32) ∧
    ((∃ cl hd, (demo.entry 3).body = .held cl hd ∧ cl.owner = 2 ∧ cl.kind = .shared) ∧
      (demo.entry 3).generation.val = (0x03#8).toNat / 32) ∧
    (NamesHandle .reconfigure 0x03 [0x03, 18, 0] ∧ NamesHandle .writeLevels 0x03 [0x03, 18, 1] ∧
      NamesHandle .setPulse 0x03 [0x03, 1, 4] ∧ NamesHandle .setWatch 0x22 [0x22, 15, 3, 3] ∧
      NamesHandle .convert 0x01 [0x01, 23, 8] ∧ NamesHandle .describe 0x1F [0x1F, 4] ∧ NamesHandle .cancel 0x40 [0x40] ∧
      NamesHandle .revoke 0x00 [0x00] ∧ NamesHandle .revoke 0x22 [0x22]) ∧
    (Sent (sent demo 0 .revoke 7 [0x00]) 0 .revoke 7 [0x00] ∧ (sent demo 0 .revoke 7 [0x00]).supervisor = 0) ∧
    ((.revoke ∈ bareHandleCommands ∧ [0x00#8, 0x00#8].length ≠ 1) ∧
      ∃ h part : Byte, [0x1F#8, 0x05#8] = [h, part] ∧ 4 < part.toNat) ∧
    (demo.supervisor ≠ 2) := by
  refine ⟨⟨sent_sent .., ⟨_, rfl, .inr (.inl ⟨rfl, none, rfl⟩)⟩, by decide, by decide +kernel⟩, by decide +kernel,
    ⟨by decide +kernel, ⟨_, rfl, by decide⟩, ⟨_, _, rfl, rfl⟩⟩, ⟨⟨_, _, rfl, rfl⟩, by decide +kernel⟩, ⟨⟨_, _, rfl, rfl⟩,
    by decide +kernel⟩, ⟨⟨_, _, rfl, rfl, rfl⟩, by decide +kernel⟩,
    ⟨⟨_, rfl, .inr (.inr (.inl ⟨rfl, [(18, input .none)], ok_of (by decide +kernel)⟩))⟩,
      ⟨_, rfl, .inr (.inr (.inr (.inl ⟨rfl, [(18, .high)], ok_of (by decide +kernel)⟩)))⟩,
      ⟨_, rfl, .inr (.inr (.inr (.inr (.inr (.inl ⟨rfl, ⟨some 4, none, none⟩, ok_of (by decide +kernel)⟩)))))⟩,
      ⟨_, rfl, .inr (.inr (.inr (.inr (.inl ⟨rfl, (15, [(3, .both)]), ok_of (by decide +kernel)⟩))))⟩,
      ⟨_, rfl, .inr (.inr (.inr (.inr (.inr (.inr (.inl ⟨rfl, (23, 8), ok_of (by decide +kernel)⟩))))))⟩,
      ⟨_, rfl, .inr (.inr (.inr (.inr (.inr (.inr (.inr ⟨rfl, .result, rfl⟩))))))⟩,
      ⟨_, rfl, .inl ⟨by decide, rfl⟩⟩, ⟨_, rfl, .inl ⟨by decide, rfl⟩⟩, ⟨_, rfl, .inl ⟨by decide, rfl⟩⟩⟩,
    ⟨sent_sent .., by decide +kernel⟩, ⟨⟨by decide, by decide⟩, _, _, rfl, by decide⟩, by decide +kernel⟩

/-! ### Bodies refused before the entry is looked at (R29, stage 2) -/

/-- Section 2.4: BAD_ARGUMENT (08h) comes before BAD_LINES (09h), that before MODE (14h), and that before the handle. -/
theorem test_argument_checks_come_in_order :
    ask demo 1 .reconfigure [0x1F, 24, 0x60, 24, 0xA0] = some (0x08, []) ∧
      ask demo 1 .reconfigure [0x1F, 24, 0x60, 3, 0] = some (0x09, []) ∧
      ask demo 1 .reconfigure [0x1F, 3, 0x60] = some (0x14, []) ∧
      ask demo 1 .reconfigure [0x1F, 3, 0x43] = some (0x0A, []) := by decide +kernel

/-- R39: REVOKE of an entry whose handle has another generation is refused with STALE_HANDLE (0Ah). -/
theorem test_revoke_checks_the_generation : ask demo 0 .revoke [0x00] = some (0x0A, []) := by decide +kernel

theorem witness_HolderChangesItsLines_bodies :
    (Sent (sent demo 1 .reconfigure 7 []) 1 .reconfigure 7 [] ∧ [0x40#8, 8, 0, 9].length % 2 = 0) ∧
    (∃ h ps, [0x40#8, 8, 0xA0] = h :: pairBytes ps ∧ ∃ p ∈ ps, ConfigRefused p.2) ∧
    (∃ h ps, [0x40#8] = h :: pairBytes ps ∧ (∀ p ∈ ps, ¬ConfigRefused p.2) ∧ LinesRefused 8 (ps.map Prod.fst)) ∧
    (∃ h ps, [0x40#8, 24, 0x93] = h :: pairBytes ps ∧ (∀ p ∈ ps, ¬ConfigRefused p.2) ∧ LinesRefused 8 (ps.map Prod.fst)) ∧
    (∃ h ps, [0x40#8, 15, 0x80] = h :: pairBytes ps ∧ (∀ p ∈ ps, ¬ConfigRefused p.2) ∧
      ¬LinesRefused 8 (ps.map Prod.fst) ∧ ModesRefused ps) ∧
    (∃ h ps, [0x40#8, 9, 0x02] = h :: pairBytes ps ∧ ∃ p ∈ ps, 1 < p.2.toNat) ∧
    (∃ h ps, [0x40#8, 9, 1, 9, 0] = h :: pairBytes ps ∧ (∀ p ∈ ps, p.2.toNat ≤ 1) ∧ LinesRefused 8 (ps.map Prod.fst)) ∧
    (LinesTaken 8 (([(16, analog), (0, input .none)] : LineConfigs).map Prod.fst) ∧
      ModesTaken [(16, analog), (0, input .none)]) :=
  ⟨⟨sent_sent .., by decide⟩, ⟨_, [(8, 0xA0)], rfl, by decide⟩, ⟨_, [], rfl, List.forall_mem_nil _, by decide⟩,
    ⟨_, [(24, 0x93)], rfl, List.forall_mem_singleton.2 (by decide), by decide⟩,
    ⟨_, [(15, 0x80)], rfl, List.forall_mem_singleton.2 (by decide), by decide, by decide⟩,
    ⟨_, [(9, 2)], rfl, by decide⟩,
    ⟨_, [(9, 1), (9, 0)], rfl, List.forall_mem_cons.2 ⟨by decide, List.forall_mem_singleton.2 (by decide)⟩, by decide⟩,
    by decide, by decide⟩

theorem witness_WatchIsSetAndCleared_bodies :
    (Sent (sent demo 1 .setWatch 7 [0x40]) 1 .setWatch 7 [0x40] ∧ [0x40#8].length % 2 = 1) ∧
    (∃ h filter ps, [0x40#8, 16, 8, 1] = h :: filter :: pairBytes ps ∧ (filter.toNat = 0 ∨ 15 < filter.toNat)) ∧
    (∃ h filter ps, [0x40#8, 15, 8, 4] = h :: filter :: pairBytes ps ∧ ∃ p ∈ ps, p.2.toNat = 0 ∨ 3 < p.2.toNat) ∧
    (∃ h filter ps, [0x40#8, 15] = h :: filter :: pairBytes ps ∧ filter.toNat ≠ 0 ∧ filter.toNat ≤ 15 ∧
      (∀ p ∈ ps, p.2.toNat ≠ 0 ∧ p.2.toNat ≤ 3) ∧ LinesRefused 8 (ps.map Prod.fst)) ∧
    LinesTaken 8 (([(23, .both)] : List (Line × Sense)).map Prod.fst) :=
  ⟨⟨sent_sent .., by decide⟩, ⟨_, _, [(8, 1)], rfl, by decide⟩, ⟨_, _, [(8, 4)], rfl, by decide⟩,
    ⟨_, _, [], rfl, by decide, by decide, List.forall_mem_nil _, by decide⟩, by decide⟩

theorem witness_SetPulseStoresUpdate_bodies :
    (Sent (sent demo 1 .setPulse 7 []) 1 .setPulse 7 [] ∧
      ∀ (h : Byte) (r : PulseRequest) (spare : Nat), r.Fits → spare < 32 → [] ≠ h :: r.bytes spare) ∧
    ((⟨none, some 1, none⟩ : PulseRequest).Fits ∧ (⟨none, some 1, none⟩ : PulseRequest).Refused ∧
      [0x40, 0xFA, 0, 1] = 0x40 :: (⟨none, some 1, none⟩ : PulseRequest).bytes 31) ∧
    ((⟨some 128, some 2, some []⟩ : PulseRequest).Fits ∧ ¬(⟨some 128, some 2, some []⟩ : PulseRequest).Refused) :=
  ⟨⟨sent_sent .., fun _ _ _ _ _ h => nomatch h⟩, by decide +kernel, by decide +kernel⟩

theorem witness_IdlePlanIsStoredOrApplied_bodies :
    (Sent (sent demo 0 .setIdlePlan 7 []) 0 .setIdlePlan 7 [] ∧ (sent demo 0 .setIdlePlan 7 []).supervisor = 0) ∧
    (∃ ps, [24#8, 0xA0] = pairBytes ps ∧ ∃ p ∈ ps, ConfigRefused p.2) ∧
    (∃ ps, [23#8, 0, 23, 0] = pairBytes ps ∧ ps ≠ [] ∧ ps.length ≤ 16 ∧ (∀ p ∈ ps, ¬ConfigRefused p.2) ∧
      LinesRefused 16 (ps.map Prod.fst)) ∧
    (∃ ps, [8#8, 0x60] = pairBytes ps ∧ (∀ p ∈ ps, ¬ConfigRefused p.2) ∧ ¬LinesRefused 16 (ps.map Prod.fst) ∧
      ModesRefused ps) ∧
    (LinesTaken 16 (([(16, analog)] : LineConfigs).map Prod.fst) ∧ ModesTaken [(16, analog)]) :=
  ⟨⟨sent_sent .., by decide +kernel⟩, ⟨[(24, 0xA0)], rfl, by decide⟩,
    ⟨[(23, 0), (23, 0)], rfl, by decide, by decide,
      List.forall_mem_cons.2 ⟨by decide, List.forall_mem_singleton.2 (by decide)⟩, by decide⟩,
    ⟨[(8, 0x60)], rfl, List.forall_mem_singleton.2 (by decide), by decide, by decide⟩, by decide, by decide⟩

theorem witness_RenewReloadsTerm_bodies :
    (Sent (sent demo 1 .renew 7 []) 1 .renew 7 [] ∧ ([] : List Byte).length ∉ [1, 3, 5]) ∧
      (0x00#8).toNat * 256 + (0x00#8).toNat = 0 ∧
      (0x00#8).toNat * 256 + (0x02#8).toNat ≤ (0x00#8).toNat * 256 + (0x02#8).toNat :=
  ⟨⟨sent_sent .., by decide +kernel⟩, by decide +kernel, by decide +kernel⟩

theorem witness_ConvertIsQueuedOrStarted_bodies :
    (Sent (sent demo 1 .convert 7 [0x40, 16]) 1 .convert 7 [0x40, 16] ∧ [0x40#8, 16].length ≠ 3) ∧
      (3#8).toNat ∉ [1, 2, 4, 8] ∧ (8#8).toNat ∈ [1, 2, 4, 8] ∧ 23 < (24#8).toNat :=
  ⟨⟨sent_sent .., by decide +kernel⟩, by decide +kernel, by decide +kernel, by decide +kernel⟩

theorem witness_plain_bodies :
    (Sent (sent demo 1 .attach 7 [0, 0, 2]) 1 .attach 7 [0, 0, 2] ∧
      ∃ hi lo a : Byte, [0#8, 0#8, 2#8] = [hi, lo, a] ∧ 1 < a.toNat) ∧
    (Sent (sent demo 0 .evict 7 [8]) 0 .evict 7 [8] ∧ (∀ n : Client, [8#8] ≠ [byteOf n.val]) ∧
      Sent (sent demo 0 .handOver 7 [8]) 0 .handOver 7 [8]) ∧
    (Sent (sent demo 1 .detach 7 [0]) 1 .detach 7 [0] ∧ Sent (sent demo 1 .ping 7 [0]) 1 .ping 7 [0] ∧
      Sent (sent demo 0 .clearAll 7 [0]) 0 .clearAll 7 [0] ∧ Sent (sent demo 1 .fetchNotice 7 [0]) 1 .fetchNotice 7 [0]) ∧
    (Sent (sent demo 1 .list 7 [2]) 1 .list 7 [2] ∧ ∃ b : Byte, [2#8] = [b] ∧ 1 < b.toNat) ∧
    (Sent (sent demo 0 .survey 7 [3]) 0 .survey 7 [3] ∧ ∃ b : Byte, [3#8] = [b] ∧ 2 < b.toNat) :=
  ⟨⟨sent_sent .., _, _, _, rfl, by decide +kernel⟩, ⟨sent_sent .., by decide +kernel, sent_sent ..⟩,
    ⟨sent_sent .., sent_sent .., sent_sent .., sent_sent ..⟩, ⟨sent_sent .., _, rfl, by decide⟩, sent_sent .., _, rfl, by decide⟩

theorem witness_HolderCommandsCheckTheLease :
    (Names (sent demo 1 .reconfigure 7 [0x40, 23, 0]) 1 0x40 0 ∧
      (∃ cl hd, (demo.entry 0).body = .held cl hd ∧ cl.kind = .exclusive ∧ (23 : Line) ∉ cl.lines ∧ (8 : Line) ∈ cl.lines ∧
        configFor hd.configs 8 = some pulseHigh ∧ hd.pulse.map (fun g => g.setting.period) = some 4) ∧
      Sent (sent demo 1 .reconfigure 7 [0x40, 23, 0]) 1 .reconfigure 7 [0x40, 23, 0] ∧
      reconfigurePairs [23, 0] = .ok [(23, input .none)] ∧ reconfigurePairs [8, 0] = .ok [(8, input .none)]) ∧
    (levelPairs [23, 1] = .ok [(23, .high)] ∧ levelPairs [8, 1] = .ok [(8, .high)]) ∧
    (watchRequest [1, 23, 1] = .ok (1, [(23, .rising)]) ∧ convertRequest [23, 1] = .ok (23, 1)) ∧
    ((∃ cl hd, ((warned 2).entry 8).body = .held cl hd ∧ cl.kind = .exclusive ∧ hd.pulse = none) ∧
      pulseRequest [4, 0, 5, 0, 0] = .ok ⟨none, none, some [5, 0]⟩ ∧ pulseRequest [4, 0, 1] = .ok ⟨none, none, some [1]⟩) :=
  ⟨⟨names_own _ _ _ _ (by decide +kernel) (by decide +kernel), ⟨_, _, rfl, rfl, by decide, by decide, by decide +kernel, rfl⟩,
      sent_sent .., ok_of (by decide +kernel), ok_of (by decide +kernel)⟩,
    ⟨ok_of (by decide +kernel), ok_of (by decide +kernel)⟩, ⟨ok_of (by decide +kernel), ok_of (by decide +kernel)⟩,
    ⟨_, _, rfl, rfl, rfl⟩, ok_of (by decide +kernel), ok_of (by decide +kernel)⟩

/-- A read of client 7's slot is under way, and a fetch window of it, as its session is evicted. -/
def watched : State :=
  { sent base 0 .evict 0 [7] with portS := ⟨.fetch 7 ⟨[0x00], false⟩, [0xFF]⟩ }

theorem test_emptied_slot_gives_ff :
    (after (.portSFetchWindow (.byte 0)) (after (.evict 0) watched)).portS = ⟨.fetch 7 ⟨[], false⟩, [0xFF, 0xFF]⟩ := by
  decide +kernel

theorem demo_session : SessionLaw demo := by
  unfold SessionLaw
  decide +kernel

theorem witness_AttachOpensSession :
    (Sent (sent demo 1 .attach 7 [0, 0, 1]) 1 .attach 7 [0, 0, if true then 0x01 else 0x00] ∧
      ((sent demo 1 .attach 7 [0, 0, 1]).client 1).attached = true ∧ SessionLaw (sent demo 1 .attach 7 [0, 0, 1])) ∧
    (Sent (sent expired 5 .attach 7 [0xFF, 0xFF, 0]) 5 .attach 7 [0xFF, 0xFF, if false then 0x01 else 0x00] ∧
      ((sent expired 5 .attach 7 [0xFF, 0xFF, 0]).client 5).attached = false ∧
      SessionLaw (sent expired 5 .attach 7 [0xFF, 0xFF, 0])) := by
  refine ⟨⟨sent_sent .., by decide +kernel, ?_⟩, sent_sent .., by decide +kernel, ?_⟩ <;>
  · unfold SessionLaw
    decide +kernel

theorem witness_DetachAndEvictEndSessions :
    Sent (sent demo 1 .detach 7 []) 1 .detach 7 [] ∧
    (Sent (sent demo 0 .evict 7 [7]) 0 .evict 7 [byteOf (7 : Client).val] ∧ (sent demo 0 .evict 7 [7]).supervisor = 0 ∧
      ((sent demo 0 .evict 7 [7]).client 7).attached = true) ∧
    (Sent (sent expired 0 .evict 7 [5]) 0 .evict 7 [byteOf (5 : Client).val] ∧
      ((sent expired 0 .evict 7 [5]).client 5).attached = false) ∧
    Sent (sent demo 0 .evict 7 [0]) 0 .evict 7 [byteOf (0 : Client).val] ∧
    (reading ⟨[0xD0], true⟩).portI.bus = .reading 1 ⟨[0xD0], true⟩ ∧ watched.portS.window = .fetch 7 ⟨[0x00], false⟩ :=
  ⟨sent_sent .., ⟨sent_sent .., by decide +kernel⟩, ⟨sent_sent .., by decide +kernel⟩, sent_sent .., rfl, rfl⟩

theorem witness_TeardownEndsSession :
    (demo.entry 0).body.ownedBy 1 = true ∧ (demo.entry 0).body.holdsExclusive 8 = true ∧
      (demo.entry 1).body.ownedBy 1 = false ∧ ∃ t, t = demo.teardown 1 .detached :=
  ⟨by decide +kernel, by decide +kernel, by decide +kernel, _, rfl⟩

theorem witness_PingAttentionAndHandOver :
    Sent (sent demo 1 .ping 7 []) 1 .ping 7 [] ∧
    Sent (sent demo 1 .setAttention 7 [1]) 1 .setAttention 7 [if true then 0x01 else 0x00] ∧
    ((∃ b : Byte, [0x02#8] = [b] ∧ 1 < b.toNat) ∧ Sent (sent demo 1 .setAttention 7 [0x02]) 1 .setAttention 7 [0x02]) ∧
    (Sent (sent demo 0 .handOver 7 [7]) 0 .handOver 7 [byteOf (7 : Client).val] ∧
      (sent demo 0 .handOver 7 [7]).supervisor = 0 ∧ ((sent demo 0 .handOver 7 [7]).client 7).attached = true) ∧
    (Sent (sent demo 0 .handOver 7 [0]) 0 .handOver 7 [byteOf (0 : Client).val] ∧
      ((sent demo 0 .handOver 7 [0]).client 0).attached = true) ∧
    (Sent (sent expired 0 .handOver 7 [5]) 0 .handOver 7 [byteOf (5 : Client).val] ∧
      ((sent expired 0 .handOver 7 [5]).client 5).attached = false) :=
  ⟨sent_sent .., sent_sent .., ⟨⟨_, rfl, by decide⟩, sent_sent ..⟩, ⟨sent_sent .., by decide +kernel⟩,
    ⟨sent_sent .., by decide +kernel⟩, sent_sent .., by decide +kernel⟩

/-- The ACQUIRE of section 6.7, with every option. -/
def fanRequest : AcquireRequest :=
  ⟨.exclusive, true, 400, some 399, some 65535, [10, 13], [(10, pulseHigh), (13, pulseLow)], some ⟨8, 1000, [250, 1000]⟩⟩

/-- A SHARED request of one line. -/
def sharedRequest : AcquireRequest := ⟨.shared, false, 1, none, none, [23], [], none⟩

theorem witness_AcquireBodyReadsBack :
    (fanRequest.well = true ∧ List.Perm [13, 10] fanRequest.lines) ∧ sharedRequest.well = true ∧
      sharedRequest.mayWait = false := by decide +kernel

/-- The fields of an EXCLUSIVE request with no options. -/
def plainFields (term : Nat) (lines configs : List Byte) : AcquireFields :=
  ⟨.exclusive, false, term, none, none, lines, configs, none⟩

theorem witness_AcquireBodyReadsBack_bodies :
    (Sent (sent demo 4 .acquire 7 []) 4 .acquire 7 [] ∧ ∀ (f : AcquireFields) (spare : Nat), [] ≠ f.bytes spare) ∧
    ((plainFields 0 [8] [0]).Fits ∧ (plainFields 0 [8] [0]).ArgumentRefused ∧
      [0, 0, 0xF8, 1, 0, 0, 8, 0] = (plainFields 0 [8] [0]).bytes 31) ∧
    ((plainFields 1 [24] [0]).Fits ∧ ¬(plainFields 1 [24] [0]).ArgumentRefused ∧ LinesRefused 8 (plainFields 1 [24] [0]).lines) ∧
    ((plainFields 1 [15] [0x83]).Fits ∧ ¬(plainFields 1 [15] [0x83]).ArgumentRefused ∧
      ¬LinesRefused 8 (plainFields 1 [15] [0x83]).lines ∧ (plainFields 1 [15] [0x83]).ModeRefused) ∧
    ((plainFields 1 [16] [0x83]).Fits ∧ ¬(plainFields 1 [16] [0x83]).ArgumentRefused ∧
      ¬LinesRefused 8 (plainFields 1 [16] [0x83]).lines ∧ ¬(plainFields 1 [16] [0x83]).ModeRefused) :=
  ⟨⟨sent_sent .., fun f spare h => by simp [AcquireFields.bytes] at h⟩, by decide, by decide, by decide, by decide⟩

/-- The ACQUIRE of section 6.7 with its lines out of order and every unexamined bit set, and a SHARED NO_WAIT request with a
wait limit of 0. -/
theorem test_acquire_bodies_read_back :
    acquireRequest (fanRequest.body [13, 10] 31 (fun l => if l = 10 then 3 else 1) none) = .ok fanRequest ∧
      acquireRequest (sharedRequest.body [23] 0 (fun _ => 0) (some 0)) = .ok sharedRequest :=
  ⟨ok_of (by decide +kernel), ok_of (by decide +kernel)⟩

/-- The body that a host sends for a request, with its lines ascending and every unexamined bit 0. -/
def usual (r : AcquireRequest) : List Byte := r.body r.lines 0 (fun _ => 0) none

/-- `demo` with an ACQUIRE from client 4. -/
def asking (r : AcquireRequest) : State := sent demo 4 .acquire 7 (usual r)

theorem witness_GrantableAcquireIsGranted :
    Sent (asking fanRequest) 4 .acquire 7 (usual fanRequest) ∧ acquireRequest (usual fanRequest) = .ok fanRequest ∧
      ((asking fanRequest).ownedSlots 4).length < 8 ∧ ((asking fanRequest).entry 4).body = .free ∧
      (∀ j : Slot, j < 4 → ((asking fanRequest).entry j).body ≠ .free) ∧
      (asking fanRequest).grantable (asking fanRequest).waitList
        ⟨fanRequest.kind, fanRequest.lines, (pulseLines fanRequest.configs).length⟩ = true :=
  ⟨sent_sent .., ok_of (by decide +kernel), by decide +kernel, by decide +kernel, by decide +kernel, by decide +kernel⟩

/-- A request that a HELD lease of `demo` blocks, one that a fence blocks, and one for which too few generators are FREE. -/
def blockedRequest (mayWait : Bool) : AcquireRequest := ⟨.exclusive, mayWait, 5, none, none, [16], [(16, analog)], none⟩

def fencedState : State := { asking (blockedRequest false) with fences := 0x10000 }

def pulseRequest3 : AcquireRequest :=
  ⟨.exclusive, false, 5, none, none, [10, 11, 12], [(10, pulseHigh), (11, pulseHigh), (12, pulseHigh)],
    some ⟨1, 2, [0, 1, 2]⟩⟩

/-- The table with entries of one client in its first slots. -/
def full (n : Nat) (c : Client) : State :=
  holding ((allSlots.take n).map fun i => (i, 0, tomb c [3] .lapsed)) base

theorem witness_BlockedAcquireWaitsOrIsRefused :
    (Sent (asking (blockedRequest true)) 4 .acquire 7 (usual (blockedRequest true)) ∧
      acquireRequest (usual (blockedRequest true)) = .ok (blockedRequest true) ∧
      ((asking (blockedRequest true)).ownedSlots 4).length < 8 ∧ ((asking (blockedRequest true)).entry 4).body = .free ∧
      (∀ j : Slot, j < 4 → ((asking (blockedRequest true)).entry j).body ≠ .free) ∧ (blockedRequest true).mayWait = true ∧
      (asking (blockedRequest true)).grantable (asking (blockedRequest true)).waitList ⟨.exclusive, [16], 0⟩ = false) ∧
    8 ≤ ((full 8 4).ownedSlots 4).length ∧
    (((full 32 3).ownedSlots 4).length < 8 ∧ ∀ i : Slot, ((full 32 3).entry i).body ≠ .free) ∧
    (acquireRequest (usual (blockedRequest false)) = .ok (blockedRequest false) ∧
      fencedState.grantable fencedState.waitList ⟨.exclusive, [16], 0⟩ = false ∧
      ∃ l ∈ (blockedRequest false).lines, inSet l fencedState.fences = true) ∧
    (demo.grantable demo.waitList ⟨.exclusive, [16], 0⟩ = false ∧ ¬(∃ l ∈ [(16 : Line)], inSet l demo.fences = true) ∧
      ∃ cl : Claim, (demo.entry 0).body.heldClaim = some cl ∧ cl.kind = .exclusive ∧ ∃ l ∈ [(16 : Line)], l ∈ cl.lines) ∧
    (acquireRequest (usual pulseRequest3) = .ok pulseRequest3 ∧
      demo.grantable demo.waitList ⟨.exclusive, [10, 11, 12], 3⟩ = false ∧
      ¬(∃ l ∈ [(10 : Line), 11, 12], inSet l demo.fences = true) ∧ demo.unheldFor ⟨.exclusive, [10, 11, 12], 3⟩ = true ∧
      demo.unwaitedFor demo.waitList ⟨.exclusive, [10, 11, 12], 3⟩ = true) := by
  refine ⟨⟨sent_sent .., ok_of (by decide +kernel), by decide +kernel⟩, by decide +kernel, by decide +kernel,
    ⟨ok_of (by decide +kernel), by decide +kernel⟩, ⟨by decide +kernel, by decide +kernel, _, rfl, rfl, by decide +kernel⟩,
    ok_of (by decide +kernel), by decide +kernel⟩

theorem witness_GrantConditionsAreFour :
    demo.grantable demo.waitList ⟨.exclusive, [10, 11], 2⟩ = true ∧
      demo.grantable demo.waitList ⟨.exclusive, [10, 11, 12], 3⟩ = false := by decide +kernel

theorem witness_GrantMakesHolder :
    (∀ p, fanRequest.pulse = some p → p.highs.length = (pulseLines fanRequest.configs).length) ∧
      (fanRequest.pulse = none ↔ pulseLines fanRequest.configs = []) ∧
      (pulseLines fanRequest.configs).length ≤ demo.freeGenerators.length ∧
      demo.freeGenerators[1]? = some 3 ∧ (pulseLines fanRequest.configs)[1]? = some 13 := by
  refine ⟨fun p h => ?_, by decide +kernel, by decide +kernel, by decide +kernel, by decide +kernel⟩
  rw [← Option.some.inj h]
  decide +kernel

/-- The one waiter of `demo` is not grantable. -/
theorem demo_settled : SettledLaw demo := by
  intro older newer i h cl w hb
  have hw : demo.waitList = [1] := rfl
  rw [hw] at h
  cases older with
  | nil =>
    obtain ⟨rfl, rfl⟩ := List.cons.inj h
    have he : (demo.entry 1).body = .waiting ⟨2, .exclusive, [8], 9⟩ ⟨[(8, input .none)], none, none, some ⟨5, 2⟩, 1⟩ := rfl
    obtain ⟨rfl, rfl⟩ := EntryBody.waiting.inj (he.symm.trans hb)
    decide +kernel
  | cons a as =>
    have := congrArg List.length h
    simp at this

/-- Section 3.9 after the release and before its scan. -/
def freed : State := fourWaiters.retire 2

theorem witness_GrantScanOnlyGrants :
    SettledLaw demo ∧ (∀ i ∈ demo.waitList, (demo.entry i).body.isWaiting = true) ∧ (∃ t, t = fourWaiters.grantScan) ∧
    (WaitListLaw freed ∧ freed.waitList = [9] ++ 10 :: [11, 12] ∧ (scanFrom [] [9] freed).waitList = [10, 11, 12] ∧
      (scanFrom [] [9] freed).grantable [] ⟨.shared, [3], 0⟩ = true ∧
      (scanFrom [] [9, 10, 11] freed).grantable [] ⟨.exclusive, [3], 0⟩ = false) := by
  refine ⟨demo_settled, by decide +kernel, ⟨_, rfl⟩, ?_, by decide +kernel⟩
  unfold WaitListLaw
  decide +kernel

theorem witness_EntriesEnd :
    (∃ cl h, (demo.entry 0).body = .held cl h) ∧ (demo.entry 1).body.heldClaim = none ∧
      (∃ cl w, (demo.entry 1).body = .waiting cl w) ∧ (demo.entry 2).body ≠ .free ∧ (demo.entry 4).body = .free :=
  ⟨⟨_, _, rfl⟩, by decide +kernel, ⟨_, _, rfl⟩, by decide +kernel, by decide +kernel⟩

theorem witness_CommandsEndEntries :
    (Names (sent demo 1 .release 7 [0x40]) 1 0x40 0 ∧ Sent (sent demo 1 .release 7 [0x40]) 1 .release 7 [0x40] ∧
      ∃ cl hd, (demo.entry 0).body = .held cl hd) ∧
    (Names (sent demo 2 .cancel 7 [0x01]) 2 0x01 1 ∧ Sent (sent demo 2 .cancel 7 [0x01]) 2 .cancel 7 [0x01] ∧
      ∃ cl w, (demo.entry 1).body = .waiting cl w) ∧
    (Names (sent demo 1 .acknowledge 7 [0x22]) 1 0x22 2 ∧
      Sent (sent demo 1 .acknowledge 7 [0x22]) 1 .acknowledge 7 [0x22] ∧ ∃ cl t, (demo.entry 2).body = .ended cl t) ∧
    (demo.supervisor = 0 ∧ handleByte (demo.entry 0).generation 0 = 0x40 ∧ (demo.entry 31).body = .free ∧
      Sent (sent demo 0 .revoke 7 [0x40]) 0 .revoke 7 [0x40]) :=
  ⟨⟨names_own _ _ _ _ (by decide +kernel) (by decide +kernel), sent_sent .., _, _, rfl⟩,
    ⟨names_own _ _ _ _ (by decide +kernel) (by decide +kernel), sent_sent .., _, _, rfl⟩,
    ⟨names_own _ _ _ _ (by decide +kernel) (by decide +kernel), sent_sent .., _, _, rfl⟩,
    by decide +kernel, by decide +kernel, by decide +kernel, sent_sent ..⟩

theorem witness_RenewReloadsTerm :
    (Names (sent demo 1 .renew 7 [0x40]) 1 0x40 0 ∧ (∃ cl hd, (demo.entry 0).body = .held cl hd) ∧
      Sent (sent demo 1 .renew 7 [0x40]) 1 .renew 7 [0x40]) ∧
    (Sent (sent demo 1 .renew 7 [0x40, 0, 1]) 1 .renew 7 [0x40, 0, 1] ∧ (0#8).toNat * 256 + (1#8).toNat ≠ 0) ∧
    (Sent (sent demo 1 .renew 7 [0x40, 0, 2, 0, 1]) 1 .renew 7 [0x40, 0, 2, 0, 1] ∧
      (0#8).toNat * 256 + (1#8).toNat < (0#8).toNat * 256 + (2#8).toNat) :=
  ⟨⟨names_own _ _ _ _ (by decide +kernel) (by decide +kernel), ⟨_, _, rfl⟩, sent_sent ..⟩, ⟨sent_sent .., by decide⟩,
    sent_sent .., by decide⟩

theorem witness_ReportsChangeNothing :
    ((∃ cl, (demo.entry 0).body.claim = some cl ∧ cl.owner = 1) ∧
      Sent (sent demo 1 .describe 7 [0x40, 4]) 1 .describe 7
        [handleByte (demo.entry 0).generation 0, Part.result.code]) ∧
    ((∃ cl, (demo.entry 1).body.claim = some cl) ∧ demo.supervisor = 0) ∧
    Sent (sent demo 1 .list 7 [0x00]) 1 .list 7 [0x00] ∧ Sent (sent demo 0 .list 7 [0x01]) 0 .list 7 [0x01] ∧
    (Names (sent demo 1 .readLevels 7 [0x40]) 1 0x40 0 ∧ (∃ cl hd, (demo.entry 0).body = .held cl hd) ∧
      Sent (sent demo 1 .readLevels 7 [0x40]) 1 .readLevels 7 [0x40]) ∧
    Sent (sent demo 0 .survey 7 [2]) 0 .survey 7 [byteOf 2] :=
  ⟨⟨⟨_, rfl, rfl⟩, sent_sent ..⟩, ⟨⟨_, rfl⟩, by decide +kernel⟩, sent_sent .., sent_sent ..,
    ⟨names_own _ _ _ _ (by decide +kernel) (by decide +kernel), ⟨_, _, rfl⟩, sent_sent ..⟩, sent_sent ..⟩

theorem witness_DescribeHasItsLayout :
    (∃ cl w, (demo.entry 1).body = .waiting cl w) ∧ (∃ cl h, (demo.entry 0).body = .held cl h ∧ cl.kind = .exclusive) ∧
      (∃ cl t, (demo.entry 2).body = .ended cl t) ∧ ∃ cl h, (demo.entry 3).body = .held cl h ∧ cl.kind = .shared :=
  ⟨⟨_, _, rfl⟩, ⟨_, _, rfl, rfl⟩, ⟨_, _, rfl⟩, _, _, rfl, rfl⟩

theorem witness_HolderChangesItsLines :
    (Names (sent demo 1 .reconfigure 7 [0x40, 16, 0]) 1 0x40 0 ∧
      (∃ cl hd, (demo.entry 0).body = .held cl hd ∧ cl.kind = .exclusive ∧ 16 ∈ cl.lines ∧
        configFor hd.configs 16 = some analog ∧ analog.mode ≠ .pulse) ∧
      Sent (sent demo 1 .reconfigure 7 [0x40, 16, 0]) 1 .reconfigure 7 [0x40, 16, 0] ∧
      reconfigurePairs [16, 0] = .ok [(16, input .none)]) ∧
    (Names (sent (warned 2) 3 .writeLevels 7 [0x48, 1, 0]) 3 0x48 8 ∧
      (∃ cl hd, ((warned 2).entry 8).body = .held cl hd ∧ cl.kind = .exclusive ∧ 1 ∈ cl.lines ∧
        configFor hd.configs 1 = some (pushPull .high)) ∧
      Sent (sent (warned 2) 3 .writeLevels 7 [0x48, 1, 0]) 3 .writeLevels 7 [0x48, 1, 0] ∧
      levelPairs [1, 0] = .ok [(1, .low)]) :=
  ⟨⟨names_own _ _ _ _ (by decide +kernel) (by decide +kernel),
      ⟨_, _, rfl, rfl, by decide, by decide +kernel, by decide⟩, sent_sent .., ok_of (by decide +kernel)⟩,
    names_own _ _ _ _ (by decide +kernel) (by decide +kernel), ⟨_, _, rfl, rfl, by decide, by decide +kernel⟩,
    sent_sent .., ok_of (by decide +kernel)⟩

theorem witness_WatchIsSetAndCleared :
    (Names (sent demo 1 .setWatch 7 [0x40, 15, 16, 3]) 1 0x40 0 ∧
      (∃ cl hd, (demo.entry 0).body = .held cl hd ∧ 16 ∈ cl.lines) ∧
      Sent (sent demo 1 .setWatch 7 [0x40, 15, 16, 3]) 1 .setWatch 7 [0x40, 15, 16, 3] ∧
      watchRequest [15, 16, 3] = .ok (15, [(16, .both)])) ∧
    Sent (sent demo 1 .clearWatch 7 [0x40]) 1 .clearWatch 7 [0x40] :=
  ⟨⟨names_own _ _ _ _ (by decide +kernel) (by decide +kernel), ⟨_, _, rfl, by decide⟩, sent_sent ..,
      ok_of (by decide +kernel)⟩, sent_sent ..⟩

/-- `fans` with a SET PULSE from client 5. -/
def pulsing : State := sent (fans 999 (some slower)) 5 .setPulse 7 [0x91, 1, 4]

theorem witness_SetPulseStoresUpdate :
    Names pulsing 5 0x91 17 ∧
      (∃ cl hd g, (pulsing.entry 17).body = .held cl hd ∧ cl.kind = .exclusive ∧ hd.pulse = some g ∧
        g.setting = ⟨8, 1000, [250, 500]⟩) ∧
      Sent pulsing 5 .setPulse 7 [0x91, 1, 4] ∧ pulseRequest [1, 4] = .ok ⟨some 4, none, none⟩ ∧
      (∃ run, pulsing.generators[1] = .running run ∧ run.slot = 17 ∧ run.count = 999) ∧
      ∃ other, pulsing.generators[2] = .running other ∧ other.slot = 17 ∧ other.count = 999 :=
  ⟨names_own _ _ _ _ (by decide +kernel) (by decide +kernel), ⟨_, _, _, rfl, rfl, rfl, rfl⟩, sent_sent ..,
    ok_of (by decide +kernel), ⟨_, rfl, rfl, rfl⟩, _, rfl, rfl, rfl⟩

theorem witness_IdlePlanIsStoredOrApplied :
    twoHolders.supervisor = 0 ∧ Sent (sent twoHolders 0 .setIdlePlan 7 planBody) 0 .setIdlePlan 7 planBody ∧
      idlePlanPairs planBody = .ok [(11, ⟨.openDrain, .up, .high⟩), (18, ⟨.openDrain, .none, .low⟩)] ∧
      twoHolders.exclusiveSlot 11 = some 3 ∧ twoHolders.exclusiveSlot 18 = none :=
  ⟨by decide +kernel, sent_sent .., ok_of (by decide +kernel), by decide +kernel, by decide +kernel⟩

theorem witness_FencesAreSetAndLifted :
    (Sent (sent demo 0 .fence 7 [23]) 0 .fence 7 [23] ∧ demo.supervisor = 0 ∧ [(23#8 : Byte)].Nodup ∧
      ∀ b ∈ [(23#8 : Byte)], b.toNat ≤ 23) ∧
    (Sent (sent demo 1 .unfence 7 [0]) 1 .unfence 7 [0] ∧ demo.supervisor ≠ 1) ∧
    Sent (sent demo 0 .fence 7 [24]) 0 .fence 7 [24] ∧ (∃ b ∈ [(24#8 : Byte)], 23 < b.toNat) ∧
    Sent (sent demo 0 .unfence 7 [0]) 0 .unfence 7 [0] :=
  ⟨⟨sent_sent .., by decide +kernel, by decide, by decide⟩, ⟨sent_sent .., by decide +kernel⟩, sent_sent .., by decide,
    sent_sent ..⟩

theorem witness_TickRateIsSet :
    (Sent (sent demo 0 .setTick 7 [7]) 0 .setTick 7 [7] ∧ demo.supervisor = 0 ∧ [(7#8 : Byte)] = [byteOf (7 : Fin 8).val]) ∧
    (Sent (sent demo 0 .setTick 7 [8]) 0 .setTick 7 [8] ∧ ∀ r : Fin 8, [(8#8 : Byte)] ≠ [byteOf r.val]) ∧
    Sent (sent demo 1 .setTick 7 [0]) 1 .setTick 7 [0] ∧ demo.supervisor ≠ 1 :=
  ⟨⟨sent_sent .., by decide +kernel, by decide⟩, ⟨sent_sent .., by decide⟩, sent_sent .., by decide +kernel⟩

theorem witness_ConverterIsSet :
    (demo.supervisor = 0 ∧ Sent (sent demo 0 .setConverter 7 [1, 3]) 0 .setConverter 7 [1, 3]) ∧
    (Sent (sent demo 0 .setConverter 7 [2, 0]) 0 .setConverter 7 [2, 0] ∧ 1 < (2#8).toNat) ∧
    (Sent (sent demo 0 .setConverter 7 [0, 4]) 0 .setConverter 7 [0, 4] ∧ 3 < (4#8).toNat) ∧
    Sent (sent demo 0 .setConverter 7 []) 0 .setConverter 7 [] :=
  ⟨⟨by decide +kernel, sent_sent ..⟩, ⟨sent_sent .., by decide⟩, ⟨sent_sent .., by decide⟩, sent_sent ..⟩

theorem witness_OnlyTheSupervisorChangesSettings :
    (∃ t, exec (.setTick 0) (sent demo 0 .setTick 7 [7]) = .next t) ∧ isResetRow (.setTick 0) = false :=
  ⟨⟨_, rfl⟩, rfl⟩

theorem witness_GenerationAdvancesWithFreeing :
    (∃ t, exec (.acknowledge 1) (sent demo 1 .acknowledge 7 [0x22]) = .next t) ∧ isResetRow (.acknowledge 1) = false ∧
      (demo.entry 2).body ≠ .free ∧ ((did demo 1 .acknowledge [0x22]).entry 2).body = .free :=
  ⟨⟨_, rfl⟩, rfl, by decide +kernel, by decide +kernel⟩

theorem witness_ClearAllFreesEverything :
    demo.supervisor = 0 ∧ Sent (sent demo 0 .clearAll 7 []) 0 .clearAll 7 [] := ⟨by decide +kernel, sent_sent ..⟩

theorem witness_FetchReturnsNextNotice :
    (Sent (sent (did demo 0 .handOver [4]) 4 .fetchNotice 7 []) 4 .fetchNotice 7 [] ∧
      (did demo 0 .handOver [4]).gained[4] = some 0) ∧
    (Sent (sent demo 1 .fetchNotice 7 []) 1 .fetchNotice 7 [] ∧ demo.gained[1] = none ∧
      (0 : Slot) = demo.cursors[1] + 1 + 0 ∧ (demo.entry 0).body.ownedBy 1 = true ∧
      demo.noticesOf 0 ≠ PendingSet.empty) ∧
    (demo.gained[2] = none ∧ ∀ i : Slot, (demo.entry i).body.ownedBy 2 = true → demo.noticesOf i = PendingSet.empty) :=
  ⟨⟨sent_sent .., by decide +kernel⟩, ⟨sent_sent .., by decide +kernel⟩, by decide +kernel⟩

theorem witness_TicksSetOutAndReachEntries :
    (base.phase.active = true ∧ (after .powerOnReset base).phase.active = false ∧ base.tickPosition < tickPeriods base.tickRate ∧
      tickPeriods base.tickRate = 80000) ∧
    demo.entryTicks[0] = false ∧
    ((ticking demo).entryTicks[31] = true ∧ (∃ cl h, ((ticking demo).entry 0).body = .held cl h ∧ 2 ≤ h.remaining) ∧
      (∃ cl h, ((ticking demo).entry 3).body = .held cl h ∧ h.remaining ≤ 1) ∧
      (∃ cl w, ((ticking demo).entry 1).body = .waiting cl w ∧ w.wait = some ⟨5, 2⟩) ∧
      (∃ cl w, ((ticking (waiting 1)).entry 10).body = .waiting cl w ∧ w.wait = some ⟨40, 1⟩) ∧
      (∃ cl w, ((ticking fourWaiters).entry 9).body = .waiting cl w ∧ w.wait = none) ∧
      (∃ cl t, ((ticking demo).entry 2).body = .ended cl t) ∧ ((ticking demo).entry 4).body = .free) :=
  ⟨by decide +kernel, by decide +kernel, by decide +kernel, ⟨_, _, rfl, by decide⟩, ⟨_, _, rfl, by decide⟩, ⟨_, _, rfl, rfl⟩,
    ⟨_, _, rfl, rfl⟩, ⟨_, _, rfl, rfl⟩, ⟨_, _, rfl⟩, by decide +kernel⟩

theorem witness_TickReachesSession :
    base.clientTicks[5] = false ∧ (ticking base).clientTicks[5] = true ∧ ((ticking expired).client 5).count = none ∧
      ((ticking (base.setClient 5 ⟨true, 7, 50, some 2, true, .noneYet⟩)).client 5).count = some 2 ∧
      ((ticking failing).client 5).count = some 1 := by decide +kernel

theorem witness_SampleReachesEveryWatch :
    (after .powerOnReset base).phase.active = false ∧ demo.samplePosition < 8000 ∧
      (State.phase { demo with samplePosition := 8000 }).active = true ∧ ∃ cl h w, (demo.entry 0).body = .held cl h ∧ h.watch = some w ∧ w.filter = 2 :=
  ⟨by decide +kernel, by decide +kernel, by decide +kernel, _, _, _, rfl, rfl, rfl⟩

theorem witness_PadsFollowTheirModes :
    demo.effective[0].mode = .input ∧ demo.effective[16].mode = .analog ∧ fourWaiters.effective[3].mode = .pushPull ∧
      (did twoHolders 0 .setIdlePlan planBody).effective[18].mode = .openDrain ∧
      (demo.effective[8].mode = .pulse ∧ ∃ r, demo.generators[0] = .running r ∧ r.line = 8 ∧ r.count = 3 ∧ r.high = 2) ∧
      demo.phase.active = true ∧ (after .powerOnReset demo).phase.active = false :=
  ⟨by decide +kernel, by decide +kernel, by decide +kernel, by decide +kernel, ⟨by decide +kernel, _, rfl, rfl, rfl, rfl⟩,
    by decide +kernel, by decide +kernel⟩

theorem witness_PulseGroupCountsAndWraps :
    ((∃ run, demo.generators[0] = .running run ∧ run.slot = 0 ∧ run.counting = true ∧ run.period ≤ run.count + 1) ∧
      ∃ cl h g u, (demo.entry 0).body = .held cl h ∧ h.pulse = some g ∧ g.update = some u) ∧
    (∃ run, (fans 998 none).generators[1] = .running run ∧ run.slot = 17 ∧ run.counting = true ∧ run.count + 1 < run.period) ∧
    (∃ run, fourWaiters.generators[0] = .running run ∧ run.slot = 2 ∧ run.counting = false) ∧
    (∃ cl h g, ((fans 999 none).entry 17).body = .held cl h ∧ h.pulse = some g ∧ g.update = none) ∧
    ∀ (g : GenIx) (r : Running), base.generators[g] = .running r → r.slot ≠ 17 := by
  refine ⟨⟨⟨_, rfl, rfl, rfl, by decide⟩, _, _, _, _, rfl, rfl, rfl⟩, ⟨_, rfl, rfl, rfl, by decide⟩, ⟨_, rfl, rfl, rfl⟩,
    ⟨_, _, _, rfl, rfl, rfl⟩, fun g r h => ?_⟩
  have hg : ∀ g : GenIx, base.generators[g] = .free := by decide +kernel
  rw [hg g] at h
  exact nomatch h

/-- An ANALOG line in a shared lease, and an IDLE converter. -/
def idleConverter : State := holding [(2, 0, shared 7 [20] 90)] (planned [(20, analog)] base)

/-- The same with a full queue. -/
def eightQueued : State := { idleConverter with convQueue := List.replicate 8 ⟨3, 20, 1⟩ }

theorem witness_ConvertIsQueuedOrStarted :
    (Names (sent demo 2 .convert 7 [0x03, 18, 8]) 2 0x03 3 ∧
      (∃ cl hd, (demo.entry 3).body = .held cl hd ∧ 18 ∈ cl.lines ∧ hd.conv ≠ .none) ∧ 8 ∈ [1, 2, 4, 8] ∧
      Sent (sent demo 2 .convert 7 [0x03, 18, 8]) 2 .convert 7 [0x03, byteOf (18 : Line).val, byteOf 8] ∧
      demo.effective[18].mode = .analog ∧ demo.inFlight ≠ none) ∧
    ((∃ cl hd, ((warned 2).entry 8).body = .held cl hd ∧ 1 ∈ cl.lines) ∧ (warned 2).effective[1].mode ≠ .analog) ∧
    ((∃ cl hd, (idleConverter.entry 2).body = .held cl hd ∧ 20 ∈ cl.lines ∧ hd.conv = .none) ∧
      idleConverter.effective[20].mode = .analog ∧ idleConverter.inFlight = none ∧ idleConverter.convQueue = []) ∧
    8 ≤ (eightQueued.convQueue).length ∧ eightQueued.effective[20].mode = .analog :=
  ⟨⟨names_own _ _ _ _ (by decide +kernel) (by decide +kernel), ⟨_, _, rfl, by decide, by decide⟩, by decide, sent_sent ..,
      by decide +kernel, by decide +kernel⟩, ⟨⟨_, _, rfl, by decide⟩, by decide +kernel⟩,
    ⟨⟨_, _, rfl, by decide, rfl⟩, by decide +kernel⟩, by decide +kernel⟩

/-- A sample of a SUPPLY conversion with its held voltage one microvolt below the last step. -/
def lastStep : InFlight := ⟨⟨3, 16, 4⟩, 1, 612, .supply, .us8, false, false, .converting 3296777, 96⟩

theorem witness_SamplesAreHeldAndConverted :
    (∃ f, (fourRequests .acquiring).inFlight = some f ∧ f.phase = .acquiring ∧ f.acquisition = .us8 ∧ 64 ≤ f.elapsed) ∧
    base.inFlight = none ∧ (∃ f, twoHolders.inFlight = some f ∧ f.acquisition = .us8 ∧ f.elapsed < 64) ∧
    (∃ f, (did (fourRequests (.converting 5)) 0 .ping []).inFlight = some f ∧ f.phase = .converting 5) ∧
    (96 ≤ lastStep.elapsed ∧ lastStep.done + 1 < lastStep.request.samples ∧ (0 : Int) ≤ 3296777 ∧
      (3296777 : Int) * 1024 < 1023 * 3300000 ∧ (1022 : Int) * 3300000 ≤ 3296777 * 1024) ∧
    (1023 : Int) * 3300000 ≤ 3296778 * 1024 :=
  ⟨⟨_, rfl, rfl, rfl, by decide⟩, by decide +kernel, ⟨_, rfl, rfl, by decide⟩, ⟨_, rfl, rfl⟩, by decide, by decide⟩

/-- The lease of the request in flight has ended. -/
def discarded : State := (fourRequests (.converting 0)).retire 3

theorem witness_CompletionDeliversResult :
    (∃ f, (discarded).inFlight = some f ∧ f.phase = .converting 0 ∧ 96 ≤ f.elapsed ∧ f.request.samples ≤ f.done + 1 ∧
      f.discard = true) ∧
    (∃ f cl h, (fourRequests (.converting 0)).inFlight = some f ∧ f.phase = .converting 0 ∧ 96 ≤ f.elapsed ∧
      f.request.samples ≤ f.done + 1 ∧ f.discard = false ∧
      ((fourRequests (.converting 0)).entry f.request.slot).body = .held cl h) ∧
    (∃ cl h, ((fourRequests .acquiring).entry 9).body = .held cl h ∧ (fourRequests .acquiring).effective[20].mode = .analog) ∧
    (∃ cl h, ((fourRequests .acquiring).entry 5).body = .held cl h ∧ (fourRequests .acquiring).effective[17].mode ≠ .analog) :=
  ⟨⟨_, rfl, rfl, by decide, by decide, rfl⟩, ⟨_, _, _, rfl, rfl, by decide, by decide, rfl, rfl⟩,
    ⟨_, _, rfl, by decide +kernel⟩, _, _, rfl, by decide +kernel⟩

theorem witness_ResetsClearAndRelease :
    demo.phase.active = true ∧ (after .resetPinReset demo).phase = .inReset ∧ (after .resetPinReset demo).phase.active = false ∧
      State.phase { State.reset with phase := .initializing 16000 } = .initializing 16000 ∧
      State.reset.phase = .initializing 0 ∧ (∀ n, base.phase = .initializing n → n < 16000) ∧ base.phase ≠ .inReset :=
  ⟨by decide +kernel, by decide +kernel, by decide +kernel, rfl, rfl, fun _ h => (nomatch h), by decide +kernel⟩

/-! ## Laws: `demo` meets each of them, and a step of it answers a next state -/

theorem demo_steps : ∃ t, step demo = .next t := ⟨_, rfl⟩

theorem witness_HoldersStayApart : HolderLaw demo ∧ ∃ t, step demo = .next t := by
  refine ⟨?_, demo_steps⟩
  unfold HolderLaw
  decide +kernel

theorem witness_WaitListStaysExact : WaitListLaw demo ∧ ∃ t, step demo = .next t := by
  refine ⟨?_, demo_steps⟩
  unfold WaitListLaw
  decide +kernel

theorem witness_CountsStayInRange : CountdownLaw demo ∧ ClockLaw demo ∧ ∃ t, step demo = .next t := by
  refine ⟨?_, ⟨by decide +kernel, by decide +kernel, fun _ h => (nomatch h), fun f h => ?_, by decide +kernel⟩, demo_steps⟩
  · unfold CountdownLaw
    decide +kernel
  · rw [← Option.some.inj h]
    decide +kernel

theorem witness_SessionsStayWithinQuota : SessionLaw demo ∧ ∃ t, step demo = .next t := ⟨demo_session, demo_steps⟩

theorem witness_RecordsStayWellFormed : RecordLaw demo ∧ ∃ t, step demo = .next t := by
  refine ⟨?_, demo_steps⟩
  unfold RecordLaw
  decide +kernel

theorem witness_LinesFollowTheirSource :
    RecordLaw demo ∧ HolderLaw demo ∧ SourceLaw demo ∧ ∃ t, step demo = .next t := by
  refine ⟨witness_RecordsStayWellFormed.1, witness_HoldersStayApart.1, ?_, demo_steps⟩
  unfold SourceLaw
  decide +kernel

theorem witness_GeneratorsFollowTheirLeases :
    RecordLaw demo ∧ GeneratorLaw demo ∧ ∃ t, step demo = .next t := by
  refine ⟨witness_RecordsStayWellFormed.1, ⟨fun g => ?_, by decide +kernel⟩, demo_steps⟩
  have h0 : demo.generators[(0 : GenIx)] = .running ⟨0, 8, 1, 4, 2, 3, 0, true⟩ := rfl
  have h1 : demo.generators[(1 : GenIx)] = .running ⟨0, 9, 1, 4, 4, 3, 0, true⟩ := rfl
  have h2 : demo.generators[(2 : GenIx)] = .free := rfl
  have h3 : demo.generators[(3 : GenIx)] = .free := rfl
  unfold State.generatorAgrees
  match g with
  | 0 => rw [h0]; decide +kernel
  | 1 => rw [h1]; decide +kernel
  | 2 => rw [h2]; decide +kernel
  | 3 => rw [h3]; decide +kernel

theorem witness_ConverterStaysConsistent : ConverterLaw demo ∧ ∃ t, step demo = .next t := by
  refine ⟨⟨by decide +kernel, by decide +kernel, by decide +kernel, by decide +kernel, fun f h => ?_, by decide +kernel⟩,
    demo_steps⟩
  rw [← Option.some.inj h]
  decide +kernel

theorem witness_NoticesSuitTheirEntries :
    RecordLaw demo ∧ ConverterLaw demo ∧ NoticeLaw demo ∧ ∃ t, step demo = .next t := by
  refine ⟨witness_RecordsStayWellFormed.1, witness_ConverterStaysConsistent.1, ?_, demo_steps⟩
  unfold NoticeLaw
  decide +kernel

theorem witness_NoWaiterIsGrantable : WaitListLaw demo ∧ SettledLaw demo ∧ ∃ t, step demo = .next t :=
  ⟨witness_WaitListStaysExact.1, demo_settled, demo_steps⟩

theorem witness_AttentionFollowsNotices : AttentionLaw demo ∧ ∃ t, step demo = .next t := by
  refine ⟨?_, demo_steps⟩
  unfold AttentionLaw
  decide +kernel

theorem witness_PortsAndResetsStayInOrder :
    (PortLaw demo ∧ ∃ t, step demo = .next t) ∧ ResetLaw (after .supplyLoss demo) ∧
      (after .supplyLoss demo).phase = .noSupply ∧ ∃ t, step (after .supplyLoss demo) = .next t := by
  refine ⟨⟨⟨by decide +kernel, by decide +kernel, by decide +kernel, by decide +kernel, fun h => ?_⟩, demo_steps⟩, ?_,
    by decide +kernel, _, rfl⟩
  · exact absurd rfl h
  · unfold ResetLaw
    decide +kernel

end Sys2Proof.Tests
end

section
/-!
PROOF. Generations (R19). The parts of an event other than ACQUIRE that change whether an entry is FREE only free entries
(`State.OnlyFrees`, which composes, so that it passes through teardowns and grant scans). What puts a lease into one slot frees
none (`State.GenerationsFollow.of_setBody`). So no entry is both freed and filled in one event, and each row follows the rule.
-/

namespace Sys2Proof.Machine

/-! ## Events and parts of events that leave the lease table -/

@[simp] theorem State.frameArrives_entries (s : State) (c : Client) (f : FrameIn) :
    (s.frameArrives c f).entries = s.entries := by
  unfold State.frameArrives State.accept State.keepalive State.noteUnread
  repeat' split
  all_goals rfl

@[simp] theorem State.busStop_entries (s : State) : s.busStop.entries = s.entries := by
  unfold State.busStop
  repeat' split
  all_goals simp

@[simp] theorem State.busStart_entries (s : State) : s.busStart.entries = s.entries := by
  unfold State.busStart
  dsimp only
  split
  all_goals simp

@[simp] theorem State.writeAddress_entries (s : State) (a : BitVec 7) : (s.writeAddress a).entries = s.entries := by
  unfold State.writeAddress
  repeat' split
  all_goals rfl

@[simp] theorem State.readAddress_entries (s : State) (a : BitVec 7) : (s.readAddress a).entries = s.entries := by
  unfold State.readAddress
  split
  all_goals rfl

theorem State.addressByte_entries (s : State) (answer : State → BitVec 7 → State) (a : BitVec 7)
    (h : (answer s a).entries = s.entries) : (s.addressByte answer a).entries = s.entries := by
  unfold State.addressByte
  split
  · exact h
  · rfl

@[simp] theorem State.writeData_entries (s : State) (b : Byte) : (s.writeData b).entries = s.entries := by
  unfold State.writeData
  split
  all_goals rfl

@[simp] theorem State.readClock_entries (s : State) : s.readClock.entries = s.entries := by
  unfold State.readClock
  dsimp only
  repeat' split
  all_goals rfl

@[simp] theorem State.windowClose_entries (s : State) : s.windowClose.entries = s.entries := by
  unfold State.windowClose
  repeat' split
  all_goals simp [State.noteDropped]

@[simp] theorem State.windowByte_entries (s : State) (b : Byte) : (s.windowByte b).entries = s.entries := by
  unfold State.windowByte
  dsimp only
  repeat' split
  all_goals rfl

@[simp] theorem State.windowEvent_entries (s : State) (e : WindowEvent) : (s.windowEvent e).entries = s.entries := by
  cases e with
  | select => simp [State.windowEvent, State.windowOpen]
  | opener b => exact s.windowByte_entries b
  | byte b => exact s.windowByte_entries b
  | close => exact s.windowClose_entries

@[simp] theorem State.postIfDue_entries (s : State) (i : Slot) (h : Held) : (s.postIfDue i h).entries = s.entries := by
  unfold State.postIfDue
  split
  all_goals rfl

@[simp] theorem State.endAcquisition_entries (s : State) (microvolts : Int) :
    (s.endAcquisition microvolts).entries = s.entries := by
  unfold State.endAcquisition
  repeat' split
  all_goals rfl

@[simp] theorem State.releaseReset_entries (s : State) (st : Straps) : (s.releaseReset st).entries = s.entries := by
  unfold State.releaseReset
  split
  all_goals rfl

@[simp] theorem State.endInitialization_entries (s : State) : s.endInitialization.entries = s.entries := by
  unfold State.endInitialization
  split
  all_goals rfl

/-- A grant changes the lease table in its own slot alone (R68). -/
theorem State.grantLease_entries (s : State) (i : Slot) (cl : Claim) (configs : LineConfigs) (p : Option PulseSetting)
    (due : Option Nat) :
    (s.grantLease i cl configs p due).entries =
      (s.setBody i (.held cl (heldAtGrant cl configs p (s.assigned (pulseLines configs)) due))).entries := by
  cases p <;> rfl

/-! ## Changes of a body that leave it FREE or not -/

@[simp] theorem EntryBody.withConv_free_iff (b : EntryBody) (v : ConvState) : b.withConv v = .free ↔ b = .free := by
  cases b <;> simp [EntryBody.withConv]

@[simp] theorem EntryBody.withResult_free_iff (b : EntryBody) (r : ConvResult) : b.withResult r = .free ↔ b = .free := by
  cases b <;> simp [EntryBody.withResult]

@[simp] theorem EntryBody.sampled_free_iff (b : EntryBody) (samples : Vector Level 24) :
    b.sampled samples = .free ↔ b = .free := by
  cases b <;> simp [EntryBody.sampled]

@[simp] theorem EntryBody.overrunCleared_free_iff (b : EntryBody) : b.overrunCleared = .free ↔ b = .free := by
  cases b <;> simp [EntryBody.overrunCleared]

@[simp] theorem EntryBody.tombstone_free_iff (b : EntryBody) (r : EndReason) : b.tombstone r = .free ↔ b = .free := by
  cases b <;> simp [EntryBody.tombstone]

/-! ## The two relations -/

/-- The rule of R19 between the lease tables before and after an event. -/
def State.GenerationsFollow (s t : State) : Prop :=
  ∀ i : Slot, (t.entry i).generation =
    if (s.entry i).body ≠ .free ∧ (t.entry i).body = .free then (s.entry i).generation + 1 else (s.entry i).generation

/-- An entry is FREE or not as before, with its generation, or it became FREE once from another state, with its generation
advanced. -/
def Entry.KeptOrFreed (e e' : Entry) : Prop :=
  (e'.generation = e.generation ∧ (e'.body = .free ↔ e.body = .free)) ∨
    (e.body ≠ .free ∧ e'.body = .free ∧ e'.generation = e.generation + 1)

/-- No FREE slot is filled, and every entry that becomes FREE advances its generation. -/
def State.OnlyFrees (s t : State) : Prop := ∀ i : Slot, (s.entry i).KeptOrFreed (t.entry i)

theorem State.OnlyFrees.follow {s t : State} (h : s.OnlyFrees t) : s.GenerationsFollow t := by
  intro i
  obtain ⟨hg, hb⟩ | ⟨hs, ht, hg⟩ := h i
  · rw [hg, if_neg fun hf => hf.1 (hb.1 hf.2)]
  · rw [hg, if_pos ⟨hs, ht⟩]

theorem State.OnlyFrees.trans {s t u : State} (h₁ : s.OnlyFrees t) (h₂ : t.OnlyFrees u) : s.OnlyFrees u := by
  intro i
  obtain ⟨hg₁, hb₁⟩ | ⟨hs, ht, hg₁⟩ := h₁ i
  · obtain ⟨hg₂, hb₂⟩ | ⟨ht, hu, hg₂⟩ := h₂ i
    · exact .inl ⟨hg₂.trans hg₁, hb₂.trans hb₁⟩
    · exact .inr ⟨fun hs => ht (hb₁.2 hs), hu, by rw [hg₂, hg₁]⟩
  · obtain ⟨hg₂, hb₂⟩ | ⟨ht', -, -⟩ := h₂ i
    · exact .inr ⟨hs, hb₂.2 ht, hg₂.trans hg₁⟩
    · exact absurd ht ht'

theorem State.OnlyFrees.of_entries {s t : State} (h : t.entries = s.entries) : s.OnlyFrees t := by
  intro i
  unfold State.entry
  rw [h]
  exact .inl ⟨rfl, .rfl⟩

theorem State.OnlyFrees.refl (s : State) : s.OnlyFrees s := .of_entries rfl

theorem State.GenerationsFollow.of_entries {s t : State} (h : t.entries = s.entries) : s.GenerationsFollow t :=
  (State.OnlyFrees.of_entries h).follow

theorem State.GenerationsFollow.refl (s : State) : s.GenerationsFollow s := .of_entries rfl

/-- A new body that is FREE exactly where the old one is keeps every entry as far as R19 goes. -/
theorem State.OnlyFrees.of_setBody {s t : State} {i : Slot} {b : EntryBody} (hb : b = .free ↔ (s.entry i).body = .free)
    (ht : t.entries = (s.setBody i b).entries) : s.OnlyFrees t := by
  refine .trans (t := s.setBody i b) (fun j => .inl ?_) (.of_entries ht)
  rw [State.entry_setBody]
  split
  · next hj => exact ⟨by rw [hj], by rw [hj]; exact hb⟩
  · exact ⟨rfl, .rfl⟩

/-- Filling one slot, whatever it held, keeps every generation, as R19 asks where nothing becomes FREE. -/
theorem State.GenerationsFollow.of_setBody {s t : State} {i : Slot} {b : EntryBody}
    (ht : t.entries = (s.setBody i b).entries) (hb : b ≠ .free) : s.GenerationsFollow t := by
  intro j
  have hj : t.entry j = (s.setBody i b).entry j := by unfold State.entry; rw [ht]
  rw [hj, State.entry_setBody]
  split
  · next h => rw [if_neg fun hf => hb hf.2, h]
  · rw [if_neg fun hf => hf.1 hf.2]

/-! ## The parts of events that end entries -/

/-- The end of an entry frees it and advances its generation, and leaves a FREE one (R19). -/
theorem State.retire_onlyFrees (s : State) (i : Slot) : s.OnlyFrees (s.retire i) := by
  intro j
  unfold State.retire
  split
  · exact State.OnlyFrees.refl s j
  · next hi =>
    rw [State.entry_discardNotices, State.entry_setEntry, State.entry_undoEntry]
    split
    · next hj => exact .inr ⟨hj ▸ hi, rfl, by rw [hj]⟩
    · exact .inl ⟨rfl, .rfl⟩

theorem State.retireAll_onlyFrees (s : State) (is : List Slot) : s.OnlyFrees (s.retireAll is) :=
  State.retireAll_keeps s.OnlyFrees (fun t i h => h.trans (t.retire_onlyFrees i)) is s (.refl s)

theorem State.teardown_onlyFrees (s : State) (c : Client) (reason : LastEnd) : s.OnlyFrees (s.teardown c reason) :=
  (s.retireAll_onlyFrees (s.ownedSlots c)).trans (.of_entries rfl)

/-- A tombstone is not FREE: an entry that leaves one keeps its generation (R19, R45). -/
theorem State.entomb_onlyFrees (s : State) (i : Slot) (r : EndReason) : s.OnlyFrees (s.entomb i r) :=
  .trans (t := s.undoEntry i) (fun j => by rw [State.entry_undoEntry]; exact .inl ⟨rfl, .rfl⟩)
    (.of_setBody (by rw [State.entry_undoEntry]; exact EntryBody.tombstone_free_iff _ r) rfl)

/-- A grant scan fills no FREE slot: what it grants is WAITING (R66). -/
theorem State.grantScan_onlyFrees (s : State) : s.OnlyFrees s.grantScan :=
  s.grantScan_keeps s.OnlyFrees
    (fun t _ i cl w h hb _ =>
      (h.trans (.of_entries (t.leaveWaitList_entries i))).trans
        (.of_setBody (by simp [hb]) ((t.leaveWaitList i).grantLease_entries i cl w.configs w.pulse w.due)))
    (.refl s)

/-- The end of an event with a grant scan, and the attention lines after it. -/
theorem State.OnlyFrees.scanned {s t : State} (h : s.OnlyFrees t) : s.OnlyFrees t.grantScan.settleAttention :=
  (h.trans t.grantScan_onlyFrees).trans (.of_entries rfl)

/-! ## The converter -/

theorem State.deliver_onlyFrees (s : State) (i : Slot) (l : Line) (value : Option Nat) (st : ResultStatus) :
    s.OnlyFrees (s.deliver i l value st) :=
  .of_setBody (EntryBody.withResult_free_iff ..) rfl

theorem startNext_onlyFrees (q : List Request) (s : State) : s.OnlyFrees (startNext q s) :=
  startNext_keeps s.OnlyFrees (fun _ h => h.trans (.of_entries rfl)) (fun t _ h => h.trans (t.deliver_onlyFrees _ _ _ _))
    (fun _ _ _ h _ => h.trans (.of_setBody (EntryBody.withConv_free_iff ..) rfl)) q s (.refl s)

theorem State.completeRequest_onlyFrees (s : State) (r : InFlight) : s.OnlyFrees (s.completeRequest r) := by
  unfold State.completeRequest
  split
  · exact startNext_onlyFrees _ _
  · exact (s.deliver_onlyFrees _ _ _ _).trans (startNext_onlyFrees _ _)

theorem State.endConversion_onlyFrees (s : State) (vdd : Int) : s.OnlyFrees (s.endConversion vdd) := by
  unfold State.endConversion
  split
  · exact .refl s
  · split
    · exact .refl s
    · split
      · exact .of_entries rfl
      · exact (s.completeRequest_onlyFrees _).trans (.of_entries rfl)

theorem State.requestConversion_onlyFrees (s : State) (r : Request) : s.OnlyFrees (s.requestConversion r) := by
  have hq : s.OnlyFrees
      { s.setBody r.slot ((s.entry r.slot).body.withConv .queued) with convQueue := s.convQueue ++ [r] } :=
    .of_setBody (EntryBody.withConv_free_iff ..) rfl
  unfold State.requestConversion
  dsimp only
  split
  · exact hq.trans (startNext_onlyFrees _ _)
  · exact hq

/-! ## Taking a command -/

/-- A command's run is its checks and its action on what they gave. A refusal changes nothing, and so does a row that finds no
command of its own, so that only the action is to be looked at. -/
theorem takeCommand_follow {α : Type} {cmd : Command} {run : Client → List Byte → State → State × Answer} {c : Client}
    {s : State} (chk : List Byte → Check α) (act : α → State × Answer)
    (hrun : ∀ body, run c body s = answerWith s (chk body) act) (h : ∀ x, s.GenerationsFollow (act x).1) :
    s.GenerationsFollow (takeCommand cmd run c s) := by
  have unchanged := State.GenerationsFollow.refl s
  unfold takeCommand
  split
  · next a _ =>
    split
    · rw [hrun]
      obtain ⟨_, -, ha⟩ | ⟨x, -, hx⟩ := answerWith_cases s (chk a.body) act
      · rw [ha]
        exact unchanged
      · rw [hx]
        exact h x
    · exact unchanged
  · exact unchanged

/-- A command that leaves the lease table. -/
theorem takeCommand_follow_of_entries {α : Type} {cmd : Command} {run : Client → List Byte → State → State × Answer}
    {c : Client} {s : State} (chk : List Byte → Check α) (act : α → State × Answer)
    (hrun : ∀ body, run c body s = answerWith s (chk body) act) (h : ∀ x, (act x).1.entries = s.entries) :
    s.GenerationsFollow (takeCommand cmd run c s) :=
  takeCommand_follow chk act hrun fun x => .of_entries (h x)

/-! ## Sessions and notices -/

theorem State.openSession_onlyFrees (s : State) (c : Client) (timeout : Nat) (attention : Bool) :
    s.OnlyFrees (s.openSession c timeout attention) := by
  refine State.OnlyFrees.trans (t := s.closeOldSession c) ?_ (.of_entries rfl)
  unfold State.closeOldSession
  split
  · exact (s.teardown_onlyFrees c .reattached).trans (State.grantScan_onlyFrees _)
  · exact .refl s

/-- A teardown that empties the client's slot and ends with a grant scan: EVICT and the expiry of a session (R165, R171). -/
theorem State.teardown_emptied_onlyFrees (s : State) (c : Client) (reason : LastEnd) :
    s.OnlyFrees (((s.teardown c reason).emptySlot c).grantScan).settleAttention :=
  ((s.teardown_onlyFrees c reason).trans (.of_entries (State.emptySlot_entries _ c))).scanned

theorem State.clearAll_onlyFrees (s : State) (c : Client) : s.OnlyFrees (s.clearAll c) := by
  have hclients : s.OnlyFrees ((s.clearedClients c).foldl State.clearClient s) :=
    List.foldlRecOn (s.clearedClients c) State.clearClient (motive := s.OnlyFrees) (.refl s) fun t ht n _ =>
      (ht.trans (t.teardown_onlyFrees n .cleared)).trans (.of_entries rfl)
  exact (hclients.trans (State.retireAll_onlyFrees _ _)).scanned

theorem State.fetch_onlyFrees (s : State) (c : Client) : s.OnlyFrees (s.fetch c).1 := by
  unfold State.fetch
  split
  · exact .of_entries rfl
  · split
    · next i _ =>
      refine .of_setBody (i := i) ?_ rfl
      split
      · exact EntryBody.overrunCleared_free_iff _
      · exact .rfl
    · exact .refl s

/-! ## ACQUIRE -/

/-- ACQUIRE fills one slot, or changes nothing (R35, R61, R62). -/
theorem acquire_follow (c : Client) (s : State) : s.GenerationsFollow (takeCommand .acquire acquireReply c s) := by
  refine takeCommand_follow _ _ (fun _ => rfl) fun x => ?_
  dsimp only
  split
  · exact .of_setBody (s.grantLease_entries ..) nofun
  · split
    · exact .of_setBody rfl nofun
    · exact .refl s

/-! ## Ticks, samples and the pulse bank -/

theorem State.entryTakesTick_follow (s : State) (i : Slot) : s.GenerationsFollow (s.entryTakesTick i) := by
  have unchanged := State.GenerationsFollow.refl s
  have ends (r : EndReason) : s.GenerationsFollow ((s.entomb i r).grantScan).settleAttention :=
    (s.entomb_onlyFrees i r).scanned.follow
  unfold State.entryTakesTick
  split
  · exact unchanged
  · split
    · exact unchanged
    · split
      · exact ends .waitExpired
      · exact .of_setBody rfl nofun
  · split
    · exact ends .lapsed
    · exact .of_setBody (State.postIfDue_entries ..) nofun
  · exact unchanged

theorem State.tickReachesEntry_follow (s : State) (i : Slot) : s.GenerationsFollow (s.tickReachesEntry i) := by
  obtain ⟨-, h⟩ | ⟨-, h⟩ := s.tickReachesEntry_cases i
  · rw [h]
    exact .refl s
  · rw [h]
    exact State.entryTakesTick_follow { s with entryTicks := s.entryTicks.set i false } i

theorem State.tickReachesClient_onlyFrees (s : State) (c : Client) : s.OnlyFrees (s.tickReachesClient c) := by
  unfold State.tickReachesClient
  split
  · refine .trans (t := { s with clientTicks := s.clientTicks.set c false }) (.of_entries rfl) ?_
    unfold State.clientTakesTick
    split
    · exact .refl _
    · split
      · exact State.teardown_emptied_onlyFrees _ c .timedOut
      · exact .of_entries rfl
  · exact .refl s

theorem State.takeSample_onlyFrees (s : State) (samples : Vector Level 24) : s.OnlyFrees (s.takeSample samples) := by
  intro i
  have hi : (s.takeSample samples).entry i = ⟨(s.entry i).generation, (s.entry i).body.sampled samples⟩ :=
    tabulate_getElem _ i
  rw [hi]
  exact .inl ⟨rfl, EntryBody.sampled_free_iff ..⟩

theorem State.wrapGroup_follow (s : State) (i : Slot) : s.GenerationsFollow (s.wrapGroup i) := by
  unfold State.wrapGroup
  split
  · exact .of_setBody rfl nofun
  · exact .of_entries rfl

theorem State.countGroup_follow (s : State) (i : Slot) : s.GenerationsFollow (s.countGroup i) := by
  unfold State.countGroup
  split
  · exact s.wrapGroup_follow i
  · exact .of_entries rfl

/-! ## Every row -/

/-- What a clocked row keeps when it is due, it keeps: at another moment it changes nothing (log 3). -/
theorem State.GenerationsFollow.ite {s t : State} (due : Bool) (h : s.GenerationsFollow t) :
    s.GenerationsFollow (if due then t else s) := by
  split
  · exact h
  · exact .refl s

/-- Every row but a reset answers a state whose generations follow R19. -/
theorem exec_follow (s : State) : ∀ row : Instr, isResetRow row = false → ∃ t, exec row s = .next t ∧ s.GenerationsFollow t
  | .portIWrite .start, _ => ⟨_, rfl, .of_entries s.busStart_entries⟩
  | .portIWrite (.address a), _ => ⟨_, rfl, .of_entries (s.addressByte_entries _ a (s.writeAddress_entries a))⟩
  | .portIWrite (.data b), _ => ⟨_, rfl, .of_entries (s.writeData_entries b)⟩
  | .portIRead .start, _ => ⟨_, rfl, .of_entries s.busStart_entries⟩
  | .portIRead (.address a), _ => ⟨_, rfl, .of_entries (s.addressByte_entries _ a (s.readAddress_entries a))⟩
  | .portIRead .clock, _ => ⟨_, rfl, .of_entries s.readClock_entries⟩
  | .portIRead .stop, _ => ⟨_, rfl, .of_entries s.busStop_entries⟩
  | .portSCommandWindow e, _ => ⟨_, rfl, .of_entries (s.windowEvent_entries e)⟩
  | .portSFetchWindow e, _ => ⟨_, rfl, .of_entries (s.windowEvent_entries e)⟩
  | .frameArrival .portI, _ => ⟨_, rfl, .of_entries s.busStop_entries⟩
  | .frameArrival .portS, _ => ⟨_, rfl, .of_entries s.windowClose_entries⟩
  | .attach c, _ => ⟨_, rfl, takeCommand_follow _ _ (fun _ => rfl) fun r => (s.openSession_onlyFrees c r.1 r.2).follow⟩
  | .detach c, _ => ⟨_, rfl, takeCommand_follow _ _ (fun _ => rfl) fun _ => (s.teardown_onlyFrees c _).scanned.follow⟩
  | .setAttention _, _ => ⟨_, rfl, takeCommand_follow_of_entries _ _ (fun _ => rfl) fun _ => rfl⟩
  | .ping _, _ => ⟨_, rfl, takeCommand_follow_of_entries _ _ (fun _ => rfl) fun _ => rfl⟩
  | .acquire c, _ => ⟨_, rfl, acquire_follow c s⟩
  | .cancel _, _ => ⟨_, rfl, takeCommand_follow _ _ (fun _ => rfl) fun i => (s.retire_onlyFrees i).scanned.follow⟩
  | .release _, _ => ⟨_, rfl, takeCommand_follow _ _ (fun _ => rfl) fun i => (s.retire_onlyFrees i).scanned.follow⟩
  | .renew _, _ => ⟨_, rfl, takeCommand_follow _ _ (fun _ => rfl) fun _ => .of_setBody rfl nofun⟩
  | .acknowledge _, _ =>
    ⟨_, rfl, takeCommand_follow _ _ (fun _ => rfl) fun p => ((s.retire_onlyFrees p.1).trans (.of_entries rfl)).follow⟩
  | .reconfigure _, _ => ⟨_, rfl, takeCommand_follow _ _ (fun _ => rfl) fun _ => .of_setBody rfl nofun⟩
  | .describe _, _ => ⟨_, rfl, takeCommand_follow_of_entries _ _ (fun _ => rfl) fun _ => rfl⟩
  | .list _, _ => ⟨_, rfl, takeCommand_follow_of_entries _ _ (fun _ => rfl) fun _ => rfl⟩
  | .writeLevels _, _ => ⟨_, rfl, takeCommand_follow _ _ (fun _ => rfl) fun _ => .of_setBody rfl nofun⟩
  | .readLevels _, _ => ⟨_, rfl, takeCommand_follow_of_entries _ _ (fun _ => rfl) fun _ => rfl⟩
  | .setWatch _, _ => ⟨_, rfl, takeCommand_follow _ _ (fun _ => rfl) fun _ => .of_setBody rfl nofun⟩
  | .clearWatch _, _ => ⟨_, rfl, takeCommand_follow _ _ (fun _ => rfl) fun _ => .of_setBody rfl nofun⟩
  | .setPulse _, _ => ⟨_, rfl, takeCommand_follow _ _ (fun _ => rfl) fun _ => .of_setBody rfl nofun⟩
  | .convert _, _ =>
    ⟨_, rfl, takeCommand_follow _ _ (fun _ => rfl) fun r =>
      ((s.requestConversion_onlyFrees r).trans (.of_entries rfl)).follow⟩
  | .fetchNotice c, _ => ⟨_, rfl, takeCommand_follow _ _ (fun _ => rfl) fun _ => (s.fetch_onlyFrees c).follow⟩
  | .revoke _, _ => ⟨_, rfl, takeCommand_follow _ _ (fun _ => rfl) fun p => (s.entomb_onlyFrees p.1 _).scanned.follow⟩
  | .fence _, _ => ⟨_, rfl, takeCommand_follow_of_entries _ _ (fun _ => rfl) fun _ => rfl⟩
  | .unfence _, _ =>
    ⟨_, rfl, takeCommand_follow _ _ (fun _ => rfl) fun _ => (State.OnlyFrees.of_entries rfl).scanned.follow⟩
  | .setIdlePlan _, _ => ⟨_, rfl, takeCommand_follow_of_entries _ _ (fun _ => rfl) fun _ => rfl⟩
  | .evict _, _ =>
    ⟨_, rfl, takeCommand_follow _ _ (fun _ => rfl) fun n => by
      split
      · exact (s.teardown_emptied_onlyFrees n .evicted).follow
      · exact .refl s⟩
  | .handOver _, _ => ⟨_, rfl, takeCommand_follow_of_entries _ _ (fun _ => rfl) fun n => by dsimp only; split <;> rfl⟩
  | .setTick _, _ => ⟨_, rfl, takeCommand_follow_of_entries _ _ (fun _ => rfl) fun _ => rfl⟩
  | .clearAll c, _ => ⟨_, rfl, takeCommand_follow _ _ (fun _ => rfl) fun _ => (s.clearAll_onlyFrees c).follow⟩
  | .survey _, _ => ⟨_, rfl, takeCommand_follow_of_entries _ _ (fun _ => rfl) fun _ => rfl⟩
  | .setConverter _, _ => ⟨_, rfl, takeCommand_follow_of_entries _ _ (fun _ => rfl) fun _ => rfl⟩
  | .tick, _ => ⟨_, rfl, .ite _ (.of_entries s.emitTick_entries)⟩
  | .termTick i, _ => ⟨_, rfl, s.tickReachesEntry_follow i⟩
  | .lapse i, _ => ⟨_, rfl, s.tickReachesEntry_follow i⟩
  | .waitTick i, _ => ⟨_, rfl, s.tickReachesEntry_follow i⟩
  | .waitExpiry i, _ => ⟨_, rfl, s.tickReachesEntry_follow i⟩
  | .sessionCountTick c, _ => ⟨_, rfl, (s.tickReachesClient_onlyFrees c).follow⟩
  | .sessionExpiry c, _ => ⟨_, rfl, (s.tickReachesClient_onlyFrees c).follow⟩
  | .lineSample _ _, _ => ⟨_, rfl, .ite _ ((s.takeSample_onlyFrees _).trans (.of_entries rfl)).follow⟩
  | .generatorWrap i, _ => ⟨_, rfl, .ite _ (s.wrapGroup_follow i)⟩
  | .acquisitionEnd v, _ => ⟨_, rfl, .ite _ (.of_entries (s.endAcquisition_entries v))⟩
  | .sampleConversionEnd v, _ => ⟨_, rfl, .ite _ (s.endConversion_onlyFrees v).follow⟩
  | .conversionComplete v, _ => ⟨_, rfl, .ite _ (s.endConversion_onlyFrees v).follow⟩
  | .powerOnReset, h => nomatch h
  | .resetPinReset, h => nomatch h
  | .supplyLowReset, h => nomatch h
  | .resetRelease _ _ _, _ => ⟨_, rfl, .of_entries (s.releaseReset_entries _)⟩
  | .initializationEnd, _ => ⟨_, rfl, .ite _ (.of_entries s.endInitialization_entries)⟩
  | .pulseClockCount i, _ => ⟨_, rfl, .ite _ (s.countGroup_follow i)⟩
  | .supplyLoss, h => nomatch h

/-- Settles O35: every row but a reset answers a state that follows the rule (`exec_follow`). -/
theorem generationAdvancesWithFreeing : Obligations.GenerationAdvancesWithFreeing := by
  unfold Obligations.GenerationAdvancesWithFreeing
  intro s t row ht hrow
  obtain ⟨u, hu, hfollow⟩ := exec_follow s row hrow
  obtain rfl : u = t := Host.Outcome.next.inj (hu.symm.trans ht)
  exact hfollow

end Sys2Proof.Machine
end

section
/-!
PROOF. FENCE and UNFENCE (R58, R59). Both commands make one list of checks and differ in their action alone, so each clause
about a refusal, and the list of lines that an accepted body gives, is proved once for a command with these checks
(`fenceCommand_answers`). What the two actions do to the fence set is read off the set operations.
-/

namespace Sys2Proof.Machine

/-! ## Lists of line numbers -/

theorem byteOf_line_injective : Function.Injective fun l : Line => byteOf l.val := fun k l h => by
  have hlines := congrArg lineOfByte h
  simpa using hlines

/-- Bytes up to 23 are the numbers of some lines (R1). -/
theorem exists_lines_of_bytes {bs : List Byte} (h : ∀ b ∈ bs, b.toNat ≤ 23) :
    ∃ ls : List Line, ls.map (fun l => byteOf l.val) = bs := by
  have hrange : bs ∈ Set.range (List.map fun l : Line => byteOf l.val) := by
    rw [Set.range_list_map]
    intro b hb
    exact ⟨⟨b.toNat, Nat.lt_succ_of_le (h b hb)⟩, by simp [byteOf]⟩
  exact hrange

/-- The numbers of some lines name these lines, if no line is there twice. -/
theorem distinctLines_map_byteOf (ls : List Line) :
    distinctLines (ls.map fun l => byteOf l.val) = if ls.Nodup then .ok ls else .error ⟨.badLines, []⟩ := by
  have hall : mapAll lineOfByte (ls.map fun l => byteOf l.val) = some ls := by
    simpa using mapAll_map lineOfByte (fun l : Line => byteOf l.val) id ls fun l _ => lineOfByte_byteOf l
  unfold distinctLines allDistinct
  rw [hall, need_some, check_ok_bind]
  split
  · next hn => rw [decide_eq_true hn, ensure_true, check_ok_bind, check_pure]
  · next hn => rw [decide_eq_false hn, ensure_false, check_error_bind]

/-- Different line numbers up to 23 name the lines with these numbers. -/
theorem distinctLines_accepts {bs : List Byte} (hn : bs.Nodup) (hle : ∀ b ∈ bs, b.toNat ≤ 23) :
    ∃ ls, distinctLines bs = .ok ls ∧ ∀ l : Line, l ∈ ls ↔ byteOf l.val ∈ bs := by
  obtain ⟨ls, rfl⟩ := exists_lines_of_bytes hle
  refine ⟨ls, ?_, fun l => (List.mem_map_of_injective byteOf_line_injective).symm⟩
  rw [distinctLines_map_byteOf, if_pos hn.of_map]

/-- A number twice or above 23 is refused with BAD_LINES (R32, R58). -/
theorem distinctLines_refuses {bs : List Byte} (h : ¬bs.Nodup ∨ ∃ b ∈ bs, 23 < b.toNat) :
    distinctLines bs = .error ⟨.badLines, []⟩ := by
  by_cases hbig : ∃ b ∈ bs, 23 < b.toNat
  · have hnone : mapAll lineOfByte bs = none :=
      (mapAll_none_iff lineOfByte bs).2 (hbig.imp fun b hb => ⟨hb.1, (lineOfByte_none_iff b).2 hb.2⟩)
    rw [distinctLines, hnone, need_none, check_error_bind]
  · obtain ⟨ls, rfl⟩ := exists_lines_of_bytes (bs := bs) fun b hb => Nat.le_of_not_lt fun hlt => hbig ⟨b, hb, hlt⟩
    have hn : ¬ls.Nodup := fun hls => (h.resolve_right hbig) (hls.map byteOf_line_injective)
    rw [distinctLines_map_byteOf, if_neg hn]

/-! ## The checks of FENCE and UNFENCE -/

/-- The supervisor check comes first (R169). -/
theorem State.fenceChecks_of_ne {s : State} {c : Client} (h : s.supervisor ≠ c) (body : List Byte) :
    s.fenceChecks c body = .error ⟨.notSupervisor, []⟩ := by
  rw [State.fenceChecks, State.needSupervisor, decide_eq_false h, ensure_false, check_error_bind]

theorem State.fenceChecks_of_supervisor {s : State} {c : Client} (h : s.supervisor = c) (body : List Byte) :
    s.fenceChecks c body = fenceLines body := by
  rw [State.fenceChecks, State.needSupervisor, decide_eq_true h, ensure_true, check_ok_bind]

theorem fenceLines_of_ne_nil {body : List Byte} (h : body ≠ []) : fenceLines body = distinctLines body := by
  rw [fenceLines, List.isEmpty_eq_false_iff.2 h, Bool.not_false, ensure_true, check_ok_bind]

theorem fenceLines_refuses {body : List Byte} (h : body = [] ∨ ¬body.Nodup ∨ ∃ b ∈ body, 23 < b.toNat) :
    fenceLines body = .error ⟨.badLines, []⟩ := by
  by_cases hnil : body = []
  · subst hnil
    rfl
  · rw [fenceLines_of_ne_nil hnil, distinctLines_refuses (h.resolve_left hnil)]

/-! ## Answers of a command with checks -/

/-- A command whose checks refuse answers with the refusal and changes nothing else (R29, R30). -/
theorem takeCommand_answers_of_error {α : Type} {cmd : Command} {run : Client → List Byte → State → State × Answer}
    {row : Instr} {c : Client} {s : State} {tag : Byte} {body : List Byte} {a : Answer} {chk : Check α}
    {act : α → State × Answer} (hrow : exec row s = .next (takeCommand cmd run c s)) (hsent : Sent s c cmd tag body)
    (hrun : run c body s = answerWith s chk act) (hchk : chk = .error a) : Answers row s s c tag a.status a.body :=
  takeCommand_answers cmd run row c s s tag body a hrow hsent (by rw [hrun, hchk, answerWith_error]) rfl

/-- A command whose checks accept answers with its action on what they gave (R29, R30). -/
theorem takeCommand_answers_of_ok {α : Type} {cmd : Command} {run : Client → List Byte → State → State × Answer}
    {row : Instr} {c : Client} {s : State} {tag : Byte} {body : List Byte} {x : α} {chk : Check α}
    {act : α → State × Answer} (hrow : exec row s = .next (takeCommand cmd run c s)) (hsent : Sent s c cmd tag body)
    (hrun : run c body s = answerWith s chk act) (hchk : chk = .ok x) (hslot : (act x).1.slot c = s.slot c) :
    Answers row s (act x).1 c tag (act x).2.status (act x).2.body :=
  takeCommand_answers cmd run row c s (act x).1 tag body (act x).2 hrow hsent (by rw [hrun, hchk, answerWith_ok]) hslot

/-- A command with the checks of FENCE is refused as they say, or acts on a list of the lines that its body numbers (R58,
R59). -/
theorem fenceCommand_answers {cmd : Command} {run : Client → List Byte → State → State × Answer} {row : Instr} {c : Client}
    {s : State} {tag : Byte} {body : List Byte} {act : List Line → State × Answer}
    (hrow : exec row s = .next (takeCommand cmd run c s)) (hsent : Sent s c cmd tag body)
    (hrun : run c body s = answerWith s (s.fenceChecks c body) act) (hslot : ∀ ls, (act ls).1.slot c = s.slot c) :
    (s.supervisor ≠ c → Answers row s s c tag .notSupervisor []) ∧
    (s.supervisor = c → (body = [] ∨ ¬body.Nodup ∨ ∃ b ∈ body, 23 < b.toNat) → Answers row s s c tag .badLines []) ∧
    (s.supervisor = c → body ≠ [] → body.Nodup → (∀ b ∈ body, b.toNat ≤ 23) →
      ∃ ls : List Line, (∀ l, l ∈ ls ↔ byteOf l.val ∈ body) ∧
        Answers row s (act ls).1 c tag (act ls).2.status (act ls).2.body) := by
  refine ⟨fun hne => ?_, fun hc hbad => ?_, fun hc hnil hn hle => ?_⟩
  · exact takeCommand_answers_of_error hrow hsent hrun (State.fenceChecks_of_ne hne body)
  · exact takeCommand_answers_of_error hrow hsent hrun
      ((State.fenceChecks_of_supervisor hc body).trans (fenceLines_refuses hbad))
  · obtain ⟨ls, hls, hmem⟩ := distinctLines_accepts hn hle
    have hchk : s.fenceChecks c body = .ok ls := by
      rw [State.fenceChecks_of_supervisor hc, fenceLines_of_ne_nil hnil, hls]
    exact ⟨ls, hmem, takeCommand_answers_of_ok hrow hsent hrun hchk (hslot ls)⟩

/-! ## Grants leave the response slots -/

@[simp] theorem State.slot_grantLease (s : State) (i : Slot) (cl : Claim) (configs : LineConfigs) (p : Option PulseSetting)
    (due : Option Nat) (c : Client) : (s.grantLease i cl configs p due).slot c = s.slot c := by
  cases p <;> rfl

@[simp] theorem State.slot_grantScan (s : State) (c : Client) : s.grantScan.slot c = s.slot c :=
  s.grantScan_keeps (fun t => t.slot c = s.slot c) (fun t _ i cl w h _ _ => by simpa using h) rfl

/-! ## The two commands -/

/-- Settles O31: the clauses of `fenceCommand_answers`, with the sets of lines that FENCE adds and UNFENCE removes. -/
theorem fencesAreSetAndLifted : Obligations.FencesAreSetAndLifted := by
  unfold Obligations.FencesAreSetAndLifted
  refine fun s c tag body => ⟨fun hsent => ?fence, fun hsent => ?unfence⟩
  case fence =>
    obtain ⟨hother, hbad, hok⟩ := fenceCommand_answers (row := .fence c) (run := fenceReply) rfl hsent rfl fun _ => rfl
    refine ⟨hother, hbad, fun hc hnil hn hle => ?_⟩
    obtain ⟨ls, hmem, hanswers⟩ := hok hc hnil hn hle
    refine ⟨lineSet ls &&& ~~~s.fences, s.fences ||| lineSet ls, fun l => ?_, fun l => ?_, hanswers⟩
    · simp [inSet_lineSet, hmem]
    · simp [inSet_lineSet, hmem, or_comm]
  case unfence =>
    obtain ⟨hother, hbad, hok⟩ := fenceCommand_answers (row := .unfence c) (run := unfenceReply) rfl hsent rfl fun ls => by
      rw [State.slot_settleAttention, State.slot_grantScan]
      rfl
    refine ⟨hother, hbad, fun hc hnil hn hle => ?_⟩
    obtain ⟨ls, hmem, hanswers⟩ := hok hc hnil hn hle
    refine ⟨lineSet ls &&& s.fences, s.fences &&& ~~~lineSet ls, fun l => ?_, fun l => ?_, hanswers⟩
    · simp [inSet_lineSet, hmem]
    · simp [inSet_lineSet, hmem, and_comm]

end Sys2Proof.Machine
end

section
/-!
PROOF. The attention lines (R156). The law reads the two lines, whether the part is in operation, and which clients want
attention (`State.SameAttention`). An event that touches a notice, an owner, a session or the phase ends with
`State.settleAttention`, which gives the law whatever stood before (`attentionLaw_settled`); every other event leaves all that
the law reads. What six commands of a holder write into an entry keeps its owner, by their checks.
-/

namespace Sys2Proof.Machine

/-! ## What the law reads -/

/-- Both lines, being in operation, and the clients that want attention are as before. -/
structure State.SameAttention (s t : State) : Prop where
  attnI : t.attnI = s.attnI
  attnS : t.attnS = s.attnS
  running : t.phase = .running ↔ s.phase = .running
  wants : ∀ c, t.wantsAttention c = s.wantsAttention c

theorem State.SameAttention.refl (s : State) : s.SameAttention s := ⟨rfl, rfl, .rfl, fun _ => rfl⟩

theorem State.SameAttention.trans {s t u : State} (h₁ : s.SameAttention t) (h₂ : t.SameAttention u) : s.SameAttention u :=
  ⟨h₂.attnI.trans h₁.attnI, h₂.attnS.trans h₁.attnS, h₂.running.trans h₁.running, fun c => (h₂.wants c).trans (h₁.wants c)⟩

theorem AttentionLaw.same {s t : State} (hs : AttentionLaw s) (h : s.SameAttention t) : AttentionLaw t := by
  unfold AttentionLaw
  simp only [h.attnI, h.attnS, h.running, h.wants]
  exact hs

theorem State.wantsAttention_setBody {s : State} {i : Slot} {b : EntryBody}
    (hb : ∀ c, b.ownedBy c = (s.entry i).body.ownedBy c) (c : Client) :
    (s.setBody i b).wantsAttention c = s.wantsAttention c := by
  have howned (j : Slot) : ((s.setBody i b).entry j).body.ownedBy c = (s.entry j).body.ownedBy c := by
    rw [State.entry_setBody]
    split
    · next hj => rw [hj]; exact hb c
    · rfl
  unfold State.wantsAttention State.hasNotice
  simp only [howned]
  rfl

/-- What is written into a slot matters to attention only as far as it changes the owner (R154). -/
theorem State.SameAttention.of_setBody {s : State} {i : Slot} {b : EntryBody}
    (hb : ∀ c, b.ownedBy c = (s.entry i).body.ownedBy c) : s.SameAttention (s.setBody i b) :=
  ⟨rfl, rfl, .rfl, State.wantsAttention_setBody hb⟩

/-- What is written into a client's record matters to attention only in two of its fields (R156). -/
theorem State.SameAttention.of_setClient {s : State} {c : Client} {r : ClientRecord}
    (hattached : r.attached = (s.client c).attached) (hattention : r.attention = (s.client c).attention) :
    s.SameAttention (s.setClient c r) := by
  refine ⟨rfl, rfl, .rfl, fun d => ?_⟩
  unfold State.wantsAttention
  rw [State.client_setClient]
  split
  · next hd => rw [hd, hattached, hattention]; rfl
  · rfl

/-! ## Bringing the lines into agreement -/

theorem mem_portIClients (c : Client) : c ∈ portIClients ↔ c.val ≤ 3 := by
  revert c
  decide

theorem mem_portSClients (c : Client) : c ∈ portSClients ↔ 4 ≤ c.val := by
  revert c
  decide

/-- After the lines are brought into agreement the law holds, whatever stood before. -/
theorem attentionLaw_settled (s : State) : AttentionLaw s.settleAttention := by
  constructor
  · change (decide _ && portIClients.any s.wantsAttention) = true ↔ s.phase = .running ∧ ∃ c, _ ∧ s.wantsAttention c = true
    simp only [Bool.and_eq_true, decide_eq_true_eq, List.any_eq_true, mem_portIClients]
  · change (decide _ && portSClients.any s.wantsAttention) = true ↔ s.phase = .running ∧ ∃ c, _ ∧ s.wantsAttention c = true
    simp only [Bool.and_eq_true, decide_eq_true_eq, List.any_eq_true, mem_portSClients]

/-! ## Ports -/

theorem State.respond_sameAttention (s : State) (c : Client) (tag : Byte) (a : Answer) :
    s.SameAttention (s.respond c tag a) := ⟨rfl, rfl, .rfl, fun _ => rfl⟩

theorem State.noteUnread_sameAttention (s : State) (c : Client) : s.SameAttention (s.noteUnread c) := by
  unfold State.noteUnread
  split
  · exact ⟨rfl, rfl, .rfl, fun _ => rfl⟩
  · exact .refl s

/-- A keepalive reloads the session count alone (R164). -/
theorem State.keepalive_sameAttention (s : State) (c : Client) (cmd : Command) : s.SameAttention (s.keepalive c cmd) := by
  unfold State.keepalive
  split
  · exact .refl s
  · exact .of_setClient rfl rfl

theorem State.accept_sameAttention (s : State) (c : Client) (a : Accepted) : s.SameAttention (s.accept c a) :=
  ((s.keepalive_sameAttention c a.command).trans (State.noteUnread_sameAttention _ c)).trans ⟨rfl, rfl, .rfl, fun _ => rfl⟩

theorem State.frameArrives_sameAttention (s : State) (c : Client) (f : FrameIn) : s.SameAttention (s.frameArrives c f) := by
  unfold State.frameArrives
  split
  · exact .refl s
  · split
    · exact (s.noteUnread_sameAttention c).trans (State.respond_sameAttention ..)
    · exact s.accept_sameAttention c _

theorem State.busFree_sameAttention (s : State) : s.SameAttention s.busFree := ⟨rfl, rfl, .rfl, fun _ => rfl⟩

theorem State.busStop_sameAttention (s : State) : s.SameAttention s.busStop := by
  unfold State.busStop
  split
  · split
    · exact s.busFree_sameAttention
    · exact s.busFree_sameAttention.trans (State.frameArrives_sameAttention ..)
  · exact s.busFree_sameAttention

theorem State.busStart_sameAttention (s : State) : s.SameAttention s.busStart := by
  unfold State.busStart
  dsimp only
  split
  · exact s.busStop_sameAttention.trans ⟨rfl, rfl, .rfl, fun _ => rfl⟩
  · exact s.busStop_sameAttention

theorem State.answerAddress_sameAttention (s : State) (acked : Bool) (b : BusState) (out : List Byte) :
    s.SameAttention (s.answerAddress acked b out) := ⟨rfl, rfl, .rfl, fun _ => rfl⟩

theorem State.writeAddress_sameAttention (s : State) (a : BitVec 7) : s.SameAttention (s.writeAddress a) := by
  unfold State.writeAddress
  split
  · exact s.answerAddress_sameAttention ..
  · split
    · exact s.answerAddress_sameAttention ..
    · exact s.answerAddress_sameAttention ..

theorem State.readAddress_sameAttention (s : State) (a : BitVec 7) : s.SameAttention (s.readAddress a) := by
  unfold State.readAddress
  split
  · exact s.answerAddress_sameAttention ..
  · exact s.answerAddress_sameAttention ..

theorem State.addressByte_sameAttention (s : State) (answer : State → BitVec 7 → State) (a : BitVec 7)
    (h : s.SameAttention (answer s a)) : s.SameAttention (s.addressByte answer a) := by
  unfold State.addressByte
  split
  · exact h
  · exact .refl s

theorem State.writeData_sameAttention (s : State) (b : Byte) : s.SameAttention (s.writeData b) := by
  unfold State.writeData
  split
  · exact ⟨rfl, rfl, .rfl, fun _ => rfl⟩
  · exact .refl s

theorem State.readClock_sameAttention (s : State) : s.SameAttention s.readClock := by
  unfold State.readClock
  dsimp only
  split
  · split
    · exact ⟨rfl, rfl, .rfl, fun _ => rfl⟩
    · exact ⟨rfl, rfl, .rfl, fun _ => rfl⟩
  · exact .refl s

theorem State.windowClosed_sameAttention (s : State) : s.SameAttention s.windowClosed := ⟨rfl, rfl, .rfl, fun _ => rfl⟩

theorem State.windowClose_sameAttention (s : State) : s.SameAttention s.windowClose := by
  unfold State.windowClose
  split
  · split
    · exact s.windowClosed_sameAttention
    · split
      · exact ⟨rfl, rfl, .rfl, fun _ => rfl⟩
      · exact s.windowClosed_sameAttention.trans (State.frameArrives_sameAttention ..)
  · exact s.windowClosed_sameAttention

theorem State.windowByte_sameAttention (s : State) (b : Byte) : s.SameAttention (s.windowByte b) := by
  unfold State.windowByte
  dsimp only
  split
  · exact ⟨rfl, rfl, .rfl, fun _ => rfl⟩
  · exact ⟨rfl, rfl, .rfl, fun _ => rfl⟩
  · split
    · exact ⟨rfl, rfl, .rfl, fun _ => rfl⟩
    · exact ⟨rfl, rfl, .rfl, fun _ => rfl⟩
  · exact ⟨rfl, rfl, .rfl, fun _ => rfl⟩
  · exact .refl s

theorem State.windowEvent_sameAttention (s : State) : ∀ e : WindowEvent, s.SameAttention (s.windowEvent e)
  | .select => s.windowClose_sameAttention.trans ⟨rfl, rfl, .rfl, fun _ => rfl⟩
  | .opener b => s.windowByte_sameAttention b
  | .byte b => s.windowByte_sameAttention b
  | .close => s.windowClose_sameAttention

/-! ## Taking a command -/

/-- What a written response keeps, and the action of a command on what its checks gave, taking the command keeps: a refusal
changes nothing, and so does a row that finds no command of its own (R30, log 5). -/
theorem takeCommand_keeps {α : Type} {cmd : Command} {run : Client → List Byte → State → State × Answer} {c : Client}
    {s : State} (P : State → Prop) (hrespond : ∀ t tag a, P t → P (t.respond c tag a)) (chk : List Byte → Check α)
    (act : α → State × Answer) (hrun : ∀ body, run c body s = answerWith s (chk body) act) (hs : P s)
    (hact : ∀ body x, chk body = .ok x → P (act x).1) : P (takeCommand cmd run c s) := by
  unfold takeCommand
  split
  · next a _ =>
    split
    · refine hrespond _ _ _ ?_
      rw [hrun]
      obtain ⟨_, -, hrefused⟩ | ⟨x, hx, hacted⟩ := answerWith_cases s (chk a.body) act
      · rw [hrefused]
        exact hs
      · rw [hacted]
        exact hact a.body x hx
    · exact hs
  · exact hs

/-- Every result that a check gives has the property. -/
def Gives {α : Type} (x : Check α) (P : α → Prop) : Prop := ∀ a, x = .ok a → P a

theorem Gives.ok {α : Type} {P : α → Prop} {a : α} (h : P a) : Gives (.ok a) P := by
  rintro _ ⟨⟩
  exact h

theorem Gives.bind {α β : Type} {x : Check α} {f : α → Check β} {P : β → Prop} (h : ∀ a, x = .ok a → Gives (f a) P) :
    Gives (x >>= f) P := by
  intro b hb
  obtain ⟨a, ha, hf⟩ := (check_bind_ok_iff x f b).1 hb
  exact h a ha b hf

section
variable {α : Type} {cmd : Command} {run : Client → List Byte → State → State × Answer} {c : Client} {s : State}
  {chk : List Byte → Check α} {act : α → State × Answer}

theorem takeCommand_attentionLaw (hs : AttentionLaw s) (hrun : ∀ body, run c body s = answerWith s (chk body) act)
    (hact : ∀ body, Gives (chk body) fun x => AttentionLaw (act x).1) : AttentionLaw (takeCommand cmd run c s) :=
  takeCommand_keeps AttentionLaw (fun t tag a ht => ht.same (t.respond_sameAttention c tag a)) chk act hrun hs hact

/-- A command that keeps the law whatever its checks gave. -/
theorem takeCommand_attentionLaw_of_act (hs : AttentionLaw s) (hrun : ∀ body, run c body s = answerWith s (chk body) act)
    (hact : ∀ x, AttentionLaw (act x).1) : AttentionLaw (takeCommand cmd run c s) :=
  takeCommand_attentionLaw hs hrun fun _ x _ => hact x

/-- A command that leaves all that the law reads. -/
theorem takeCommand_attentionLaw_of_same (hs : AttentionLaw s) (hrun : ∀ body, run c body s = answerWith s (chk body) act)
    (hact : ∀ x, s.SameAttention (act x).1) : AttentionLaw (takeCommand cmd run c s) :=
  takeCommand_attentionLaw_of_act hs hrun fun x => hs.same (hact x)

end

/-! ## What the checks of a holder's commands give -/

theorem EntryBody.needHeld_ok_iff (b : EntryBody) (p : Claim × Held) : b.needHeld = .ok p ↔ b = .held p.1 p.2 := by
  cases b <;> simp [EntryBody.needHeld, refuse, wrongState, endedRefusal, Prod.ext_iff]

theorem EntryBody.held_of_needExclusive {b : EntryBody} {p : Claim × Held} (h : b.needExclusive = .ok p) :
    b = .held p.1 p.2 := by
  obtain ⟨q, hq, hp⟩ := (check_bind_ok_iff _ _ _).1 h
  dsimp only at hp
  split at hp
  · obtain rfl : q = p := by simpa using hp
    exact (b.needHeld_ok_iff q).1 hq
  · simp [wrongState] at hp

/-- A HELD entry written again as HELD by the same owner. -/
theorem State.SameAttention.of_held {s : State} {i : Slot} {p : Claim × Held} (hheld : (s.entry i).body = .held p.1 p.2)
    {cl : Claim} (howner : cl.owner = p.1.owner) (h : Held) : s.SameAttention (s.setBody i (.held cl h)) :=
  .of_setBody fun c => by
    rw [hheld]
    change decide (cl.owner = c) = decide (p.1.owner = c)
    rw [howner]

theorem State.reconfigureLease_sameAttention {s : State} {i : Slot} {p : Claim × Held}
    (hheld : (s.entry i).body = .held p.1 p.2) (ps : LineConfigs) :
    s.SameAttention (s.reconfigureLease i p.1 p.2 ps) :=
  (State.SameAttention.of_held hheld rfl _).trans ⟨rfl, rfl, .rfl, fun _ => rfl⟩

theorem renewed_owner (cl : Claim) (h : Held) (t : Option (Nat × Option Nat)) : (renewed cl h t).1.owner = cl.owner := by
  cases t <;> rfl

section
variable {s : State} (hs : AttentionLaw s) (c : Client)
include hs

theorem renew_attentionLaw : AttentionLaw (takeCommand .renew renewReply c s) :=
  takeCommand_attentionLaw hs (fun _ => rfl) fun _ => .bind fun _ _ => .bind fun t _ => .bind fun _ _ => .bind fun p hp =>
    .ok (hs.same (State.SameAttention.of_held ((EntryBody.needHeld_ok_iff _ p).1 hp) (renewed_owner p.1 p.2 t) _))

theorem reconfigure_attentionLaw : AttentionLaw (takeCommand .reconfigure reconfigureReply c s) :=
  takeCommand_attentionLaw hs (fun _ => rfl) fun _ => .bind fun _ _ => .bind fun ps _ => .bind fun _ _ => .bind fun _ hp =>
    .bind fun _ _ => .bind fun _ _ =>
      .ok (hs.same (State.reconfigureLease_sameAttention (EntryBody.held_of_needExclusive hp) ps))

theorem writeLevels_attentionLaw : AttentionLaw (takeCommand .writeLevels writeLevelsReply c s) :=
  takeCommand_attentionLaw hs (fun _ => rfl) fun _ => .bind fun _ _ => .bind fun ps _ => .bind fun _ _ => .bind fun p hp =>
    .bind fun _ _ => .bind fun _ _ =>
      .ok (hs.same (State.reconfigureLease_sameAttention (EntryBody.held_of_needExclusive hp) (withLevels p.2.configs ps)))

theorem setWatch_attentionLaw : AttentionLaw (takeCommand .setWatch setWatchReply c s) :=
  takeCommand_attentionLaw hs (fun _ => rfl) fun _ => .bind fun _ _ => .bind fun _ _ => .bind fun _ _ => .bind fun p hp =>
    .bind fun _ _ => .ok (hs.same (State.SameAttention.of_held ((EntryBody.needHeld_ok_iff _ p).1 hp) rfl _))

theorem clearWatch_attentionLaw : AttentionLaw (takeCommand .clearWatch clearWatchReply c s) :=
  takeCommand_attentionLaw hs (fun _ => rfl) fun _ => .bind fun _ _ => .bind fun p hp =>
    .ok (hs.same (State.SameAttention.of_held ((EntryBody.needHeld_ok_iff _ p).1 hp) rfl _))

theorem setPulse_attentionLaw : AttentionLaw (takeCommand .setPulse setPulseReply c s) :=
  takeCommand_attentionLaw hs (fun _ => rfl) fun _ => .bind fun _ _ => .bind fun _ _ => .bind fun _ _ => .bind fun _ hp =>
    .bind fun _ _ => .bind fun _ _ => .bind fun _ _ =>
      .ok (hs.same (State.SameAttention.of_held (EntryBody.held_of_needExclusive hp) rfl _))

/-! ## The other commands with more than one case -/

/-- A grant and a place in the wait list end with the lines brought into agreement; a refusal changes nothing (R61). -/
theorem acquire_attentionLaw : AttentionLaw (takeCommand .acquire acquireReply c s) :=
  takeCommand_attentionLaw_of_act hs (fun _ => rfl) fun x => by
    dsimp only
    split
    · exact attentionLaw_settled _
    · split
      · exact attentionLaw_settled _
      · exact hs

theorem State.fetch_attentionLaw : AttentionLaw (s.fetch c).1 := by
  unfold State.fetch
  split
  · exact attentionLaw_settled _
  · split
    · exact attentionLaw_settled _
    · exact hs

theorem evict_attentionLaw : AttentionLaw (takeCommand .evict evictReply c s) :=
  takeCommand_attentionLaw_of_act hs (fun _ => rfl) fun n => by
    split
    · exact attentionLaw_settled _
    · exact hs

theorem handOver_attentionLaw : AttentionLaw (takeCommand .handOver handOverReply c s) :=
  takeCommand_attentionLaw_of_act hs (fun _ => rfl) fun n => by
    dsimp only
    split
    · exact hs
    · exact attentionLaw_settled _

/-! ## Ticks, the pulse bank and the converter -/

theorem State.entryTakesTick_attentionLaw (i : Slot) : AttentionLaw (s.entryTakesTick i) := by
  unfold State.entryTakesTick
  split
  · exact hs
  · next cl w hb =>
    split
    · exact hs
    · split
      · exact attentionLaw_settled _
      · exact hs.same (State.SameAttention.of_setBody fun _ => by rw [hb]; rfl)
  · split
    · exact attentionLaw_settled _
    · exact attentionLaw_settled _
  · exact hs

theorem State.tickReachesEntry_attentionLaw (i : Slot) : AttentionLaw (s.tickReachesEntry i) := by
  obtain ⟨-, h⟩ | ⟨-, h⟩ := s.tickReachesEntry_cases i
  · rw [h]
    exact hs
  · rw [h]
    exact State.entryTakesTick_attentionLaw (s := { s with entryTicks := s.entryTicks.set i false })
      (hs.same ⟨rfl, rfl, .rfl, fun _ => rfl⟩) i

theorem State.clientTakesTick_attentionLaw : AttentionLaw (s.clientTakesTick c) := by
  unfold State.clientTakesTick
  split
  · exact hs
  · split
    · exact attentionLaw_settled _
    · exact hs.same (State.SameAttention.of_setClient (s := s) rfl rfl)

theorem State.tickReachesClient_attentionLaw : AttentionLaw (s.tickReachesClient c) := by
  unfold State.tickReachesClient
  split
  · exact State.clientTakesTick_attentionLaw (s := { s with clientTicks := s.clientTicks.set c false })
      (hs.same ⟨rfl, rfl, .rfl, fun _ => rfl⟩) c
  · exact hs

theorem State.mapGroup_attentionLaw (i : Slot) (f : Running → Running) : AttentionLaw (s.mapGroup i f) :=
  hs.same ⟨rfl, rfl, .rfl, fun _ => rfl⟩

theorem State.wrapGroup_attentionLaw (i : Slot) : AttentionLaw (s.wrapGroup i) := by
  unfold State.wrapGroup
  split
  · exact attentionLaw_settled _
  · exact State.mapGroup_attentionLaw hs i _

theorem State.countGroup_attentionLaw (i : Slot) : AttentionLaw (s.countGroup i) := by
  unfold State.countGroup
  split
  · exact State.wrapGroup_attentionLaw hs i
  · exact State.mapGroup_attentionLaw hs i _

theorem State.endAcquisition_attentionLaw (microvolts : Int) : AttentionLaw (s.endAcquisition microvolts) := by
  unfold State.endAcquisition
  split
  · exact hs
  · split
    · exact hs
    · exact hs.same ⟨rfl, rfl, .rfl, fun _ => rfl⟩

theorem State.endConversion_attentionLaw (vdd : Int) : AttentionLaw (s.endConversion vdd) := by
  unfold State.endConversion
  split
  · exact hs
  · split
    · exact hs
    · split
      · exact hs.same ⟨rfl, rfl, .rfl, fun _ => rfl⟩
      · exact attentionLaw_settled _

/-! ## Resets -/

omit hs in
/-- A reset releases both lines, and outside operation they stay released (R17, R156). -/
theorem State.cleared_attentionLaw (s : State) {p : Phase} (cause : ResetCause) (hp : p ≠ .running) :
    AttentionLaw (s.cleared p cause) :=
  ⟨⟨nofun, fun h => absurd h.1 hp⟩, ⟨nofun, fun h => absurd h.1 hp⟩⟩

theorem State.assertReset_attentionLaw (cause : ResetCause) : AttentionLaw (s.assertReset cause) := by
  unfold State.assertReset
  split
  · exact hs
  · exact hs
  · exact s.cleared_attentionLaw cause nofun
  · exact s.cleared_attentionLaw cause nofun

theorem State.releaseReset_attentionLaw (st : Straps) : AttentionLaw (s.releaseReset st) := by
  unfold State.releaseReset
  split
  · exact attentionLaw_settled _
  · exact hs

theorem State.endInitialization_attentionLaw : AttentionLaw s.endInitialization := by
  unfold State.endInitialization
  split
  · exact attentionLaw_settled _
  · exact hs

/-! ## Every step -/

omit hs in
theorem Phase.afterPeriod_running_iff (p : Phase) : p.afterPeriod = .running ↔ p = .running := by
  cases p <;> simp [Phase.afterPeriod]

theorem State.idle_attentionLaw : AttentionLaw s.idle := by
  obtain h | ⟨-, -, h⟩ := s.idle_cases
  · rw [h]
    exact hs
  · rw [h]
    exact hs.same ⟨rfl, rfl, s.phase.afterPeriod_running_iff, fun _ => rfl⟩

/-- What a clocked row keeps when it is due, it keeps: at another moment it changes nothing (log 3). -/
theorem AttentionLaw.ite {t : State} (due : Bool) (ht : AttentionLaw t) : AttentionLaw (if due then t else s) := by
  split
  · exact ht
  · exact hs

/-- Every row keeps the law. -/
theorem exec_attentionLaw : ∀ row : Instr, ∃ t, exec row s = .next t ∧ AttentionLaw t
  | .portIWrite .start => ⟨_, rfl, hs.same s.busStart_sameAttention⟩
  | .portIWrite (.address a) => ⟨_, rfl, hs.same (s.addressByte_sameAttention _ a (s.writeAddress_sameAttention a))⟩
  | .portIWrite (.data b) => ⟨_, rfl, hs.same (s.writeData_sameAttention b)⟩
  | .portIRead .start => ⟨_, rfl, hs.same s.busStart_sameAttention⟩
  | .portIRead (.address a) => ⟨_, rfl, hs.same (s.addressByte_sameAttention _ a (s.readAddress_sameAttention a))⟩
  | .portIRead .clock => ⟨_, rfl, hs.same s.readClock_sameAttention⟩
  | .portIRead .stop => ⟨_, rfl, hs.same s.busStop_sameAttention⟩
  | .portSCommandWindow e => ⟨_, rfl, hs.same (s.windowEvent_sameAttention e)⟩
  | .portSFetchWindow e => ⟨_, rfl, hs.same (s.windowEvent_sameAttention e)⟩
  | .frameArrival .portI => ⟨_, rfl, hs.same s.busStop_sameAttention⟩
  | .frameArrival .portS => ⟨_, rfl, hs.same s.windowClose_sameAttention⟩
  | .attach _ => ⟨_, rfl, takeCommand_attentionLaw_of_act hs (fun _ => rfl) fun _ => attentionLaw_settled _⟩
  | .detach _ => ⟨_, rfl, takeCommand_attentionLaw_of_act hs (fun _ => rfl) fun _ => attentionLaw_settled _⟩
  | .setAttention _ => ⟨_, rfl, takeCommand_attentionLaw_of_act hs (fun _ => rfl) fun _ => attentionLaw_settled _⟩
  | .ping _ => ⟨_, rfl, takeCommand_attentionLaw_of_act hs (fun _ => rfl) fun _ => hs⟩
  | .acquire c => ⟨_, rfl, acquire_attentionLaw hs c⟩
  | .cancel _ => ⟨_, rfl, takeCommand_attentionLaw_of_act hs (fun _ => rfl) fun _ => attentionLaw_settled _⟩
  | .release _ => ⟨_, rfl, takeCommand_attentionLaw_of_act hs (fun _ => rfl) fun _ => attentionLaw_settled _⟩
  | .renew c => ⟨_, rfl, renew_attentionLaw hs c⟩
  | .acknowledge _ => ⟨_, rfl, takeCommand_attentionLaw_of_act hs (fun _ => rfl) fun _ => attentionLaw_settled _⟩
  | .reconfigure c => ⟨_, rfl, reconfigure_attentionLaw hs c⟩
  | .describe _ => ⟨_, rfl, takeCommand_attentionLaw_of_act hs (fun _ => rfl) fun _ => hs⟩
  | .list _ => ⟨_, rfl, takeCommand_attentionLaw_of_act hs (fun _ => rfl) fun _ => hs⟩
  | .writeLevels c => ⟨_, rfl, writeLevels_attentionLaw hs c⟩
  | .readLevels _ => ⟨_, rfl, takeCommand_attentionLaw_of_act hs (fun _ => rfl) fun _ => hs⟩
  | .setWatch c => ⟨_, rfl, setWatch_attentionLaw hs c⟩
  | .clearWatch c => ⟨_, rfl, clearWatch_attentionLaw hs c⟩
  | .setPulse c => ⟨_, rfl, setPulse_attentionLaw hs c⟩
  | .convert _ => ⟨_, rfl, takeCommand_attentionLaw_of_act hs (fun _ => rfl) fun _ => attentionLaw_settled _⟩
  | .fetchNotice c => ⟨_, rfl, takeCommand_attentionLaw_of_act hs (fun _ => rfl) fun _ => State.fetch_attentionLaw hs c⟩
  | .revoke _ => ⟨_, rfl, takeCommand_attentionLaw_of_act hs (fun _ => rfl) fun _ => attentionLaw_settled _⟩
  | .fence _ => ⟨_, rfl, takeCommand_attentionLaw_of_same hs (fun _ => rfl) fun _ => ⟨rfl, rfl, .rfl, fun _ => rfl⟩⟩
  | .unfence _ => ⟨_, rfl, takeCommand_attentionLaw_of_act hs (fun _ => rfl) fun _ => attentionLaw_settled _⟩
  | .setIdlePlan _ => ⟨_, rfl, takeCommand_attentionLaw_of_same hs (fun _ => rfl) fun _ => ⟨rfl, rfl, .rfl, fun _ => rfl⟩⟩
  | .evict c => ⟨_, rfl, evict_attentionLaw hs c⟩
  | .handOver c => ⟨_, rfl, handOver_attentionLaw hs c⟩
  | .setTick _ => ⟨_, rfl, takeCommand_attentionLaw_of_same hs (fun _ => rfl) fun _ => ⟨rfl, rfl, .rfl, fun _ => rfl⟩⟩
  | .clearAll _ => ⟨_, rfl, takeCommand_attentionLaw_of_act hs (fun _ => rfl) fun _ => attentionLaw_settled _⟩
  | .survey _ => ⟨_, rfl, takeCommand_attentionLaw_of_act hs (fun _ => rfl) fun _ => hs⟩
  | .setConverter _ => ⟨_, rfl, takeCommand_attentionLaw_of_same hs (fun _ => rfl) fun _ => ⟨rfl, rfl, .rfl, fun _ => rfl⟩⟩
  | .tick => ⟨_, rfl, .ite hs _ (hs.same ⟨rfl, rfl, .rfl, fun _ => rfl⟩)⟩
  | .termTick i => ⟨_, rfl, State.tickReachesEntry_attentionLaw hs i⟩
  | .lapse i => ⟨_, rfl, State.tickReachesEntry_attentionLaw hs i⟩
  | .waitTick i => ⟨_, rfl, State.tickReachesEntry_attentionLaw hs i⟩
  | .waitExpiry i => ⟨_, rfl, State.tickReachesEntry_attentionLaw hs i⟩
  | .sessionCountTick c => ⟨_, rfl, State.tickReachesClient_attentionLaw hs c⟩
  | .sessionExpiry c => ⟨_, rfl, State.tickReachesClient_attentionLaw hs c⟩
  | .lineSample _ _ => ⟨_, rfl, .ite hs _ (attentionLaw_settled _)⟩
  | .generatorWrap i => ⟨_, rfl, .ite hs _ (State.wrapGroup_attentionLaw hs i)⟩
  | .acquisitionEnd v => ⟨_, rfl, .ite hs _ (State.endAcquisition_attentionLaw hs v)⟩
  | .sampleConversionEnd v => ⟨_, rfl, .ite hs _ (State.endConversion_attentionLaw hs v)⟩
  | .conversionComplete v => ⟨_, rfl, .ite hs _ (State.endConversion_attentionLaw hs v)⟩
  | .powerOnReset => ⟨_, rfl, s.cleared_attentionLaw _ nofun⟩
  | .resetPinReset => ⟨_, rfl, State.assertReset_attentionLaw hs _⟩
  | .supplyLowReset => ⟨_, rfl, State.assertReset_attentionLaw hs _⟩
  | .resetRelease _ _ _ => ⟨_, rfl, State.releaseReset_attentionLaw hs _⟩
  | .initializationEnd => ⟨_, rfl, .ite hs _ (State.endInitialization_attentionLaw hs)⟩
  | .pulseClockCount i => ⟨_, rfl, .ite hs _ (State.countGroup_attentionLaw hs i)⟩
  | .supplyLoss => ⟨_, rfl, s.cleared_attentionLaw _ nofun⟩

end

/-- Settles O57: a step is idle (`State.idle_attentionLaw`), or takes the row at the front of the queue (`exec_attentionLaw`),
which the law does not read. -/
theorem attentionFollowsNotices : Obligations.AttentionFollowsNotices := by
  unfold Obligations.AttentionFollowsNotices
  intro s t hs ht
  unfold step at ht
  split at ht
  · obtain rfl : s.idle = t := Host.Outcome.next.inj ht
    exact State.idle_attentionLaw hs
  · next row rest _ =>
    obtain ⟨u, hu, hlaw⟩ := exec_attentionLaw (s := { s with pending := rest })
      (hs.same ⟨rfl, rfl, .rfl, fun _ => rfl⟩) row
    obtain rfl : u = t := Host.Outcome.next.inj (hu.symm.trans ht)
    exact hlaw

end Sys2Proof.Machine
end

section
/-!
PROOF. What an event is made of, said once. Each row answers a state that a chain of parts leads to (`exec_event`): parts that
leave the leases, their lines, generators and conversions (`SidePart`), parts that do not leave them (`LeasePart`), and the
clearing of all state by a reset. A part carries what the checks or the condition of its row have settled when it comes, so that
a law is kept by every step once each part keeps it (`step_keeps`).
-/

namespace Sys2Proof.Machine

/-! ## The parts -/

/-- The client's record and its client reason as its session ends (R167, step 3). -/
def State.endSession (s : State) (c : Client) (reason : LastEnd) : State :=
  ({ s with gained := s.gained.set c none, cursors := s.cursors.set c 31 } : State).setClient c ((s.client c).ended reason)

/-- The rows whose event may make a waiting entry grantable, so that a grant scan follows (R67), or may end a tombstone. -/
def mayEnd : Instr → Bool
  | .attach _ | .detach _ | .cancel _ | .release _ | .acknowledge _ | .revoke _ | .unfence _ | .evict _ | .clearAll _ => true
  | .termTick _ | .lapse _ | .waitTick _ | .waitExpiry _ | .sessionCountTick _ | .sessionExpiry _ => true
  | _ => false

/-- The rows of the two ports. -/
def isPortRow : Instr → Bool
  | .portIWrite _ | .portIRead _ | .portSCommandWindow _ | .portSFetchWindow _ | .frameArrival _ => true
  | _ => false

/-- A part of a row's event that leaves the lease table, the lines, the generators, the converter and the lease notices. -/
inductive SidePart (row : Instr) (s : State) : State → Prop
  /-- The attention lines are brought into agreement. -/
  | settle : SidePart row s s.settleAttention
  /-- A port takes part of a transaction, or a slot changes: a command comes to wait only for an ATTACHED client, or it is an
  ATTACH, and a keepalive comes with it. -/
  | ports (hrow : isPortRow row = true) (t : State) (hframe : t = { s with portI := t.portI, portS := t.portS, slots := t.slots, clients := t.clients })
      (hclient : ∀ c, t.client c = s.client c ∨ ((s.client c).attached = true ∧ t.client c = (s.client c).kept))
      (hslot : ∀ c a, (t.slot c).state = .busy a →
        (s.slot c).state = .busy a ∨ a.command = .attach ∨ (s.client c).attached = true) : SidePart row s t
  | respond (c : Client) (tag : Byte) (a : Answer) : SidePart row s (s.respond c tag a)
  /-- A client reason is collected. -/
  | collectGain (c : Client) : SidePart row s { s with gained := s.gained.set c none }
  /-- A session ends, and the command that ends it still waits in the slot. -/
  | close (c : Client) (reason : LastEnd) (hown : s.ownedSlots c = [])
      (hslot : row = .detach c ∨ ∀ a, (s.slot c).state = .busy a → a.command = .attach) :
      SidePart row s (s.endSession c reason)
  /-- A session ends with its slot emptied. -/
  | dismiss (c : Client) (reason : LastEnd) (hown : s.ownedSlots c = []) :
      SidePart row s ((s.endSession c reason).emptySlot c)
  | openSession (c : Client) (timeout : Nat) (attention : Bool) (htimeout : timeout ≤ 65535) :
      SidePart row s (s.setClient c ((s.client c).opened timeout attention))
  | setAttention (c : Client) (a : Bool) : SidePart row s (s.setClient c { s.client c with attention := a })
  | countSession (c : Client) (n : Nat) (hcount : (s.client c).count = some n) (hn : 2 ≤ n) :
      SidePart row s (s.setClient c { s.client c with count := some (n - 1) })
  | fence (c : Client) (m : LineSet) (hrow : (row = .fence c ∧ ∃ ls, m = s.fences ||| lineSet ls) ∨ row = .unfence c)
      (hc : s.supervisor = c) :
      SidePart row s { s with fences := m }
  | handOver (c n : Client) (hrow : row = .handOver c) (hc : s.supervisor = c) (hn : (s.client n).attached = true) :
      SidePart row s { s with supervisor := n, gained := s.gained.set n (some c) }
  | setTick (c : Client) (r : Fin 8) (hrow : row = .setTick c) (hc : s.supervisor = c) :
      SidePart row s { s with tickRate := r, tickPosition := 0 }
  | setConverter (c : Client) (r : Reference) (a : AcqTime) (hrow : row = .setConverter c) (hc : s.supervisor = c) :
      SidePart row s { s with reference := r, acquisition := a }
  | emitTick (hactive : s.phase.active = true) (hdue : s.tickDue = true) : SidePart row s s.emitTick
  | takeEntryTick (i : Slot) : SidePart row s { s with entryTicks := s.entryTicks.set i false }
  | takeClientTick (c : Client) : SidePart row s { s with clientTicks := s.clientTicks.set c false }
  | release (a b v : Bool) (hrow : row = .resetRelease a b v) (hphase : s.phase = .inReset) :
      SidePart row s { s with phase := .initializing 0, straps := ⟨a, b, v⟩, supervisor := supvClient v }
  | endInitialization (n : Nat) (hphase : s.phase = .initializing n) : SidePart row s { s with phase := .running }

/-- A part of a row's event that changes leases, or what belongs to them. -/
inductive LeasePart (row : Instr) (s : State) : State → Prop
  | retire (i : Slot) (hends : mayEnd row = true) : LeasePart row s (s.retire i)
  | entomb (i : Slot) (r : EndReason) (cl : Claim) (hlive : (s.entry i).body.needLive = .ok cl)
      (hends : mayEnd row = true) : LeasePart row s (s.entomb i r)
  /-- A waiting entry is granted at its turn of a grant scan. -/
  | grant (older : List Slot) (i : Slot) (cl : Claim) (w : Waiting) (hbody : (s.entry i).body = .waiting cl w)
      (hgrant : s.grantable older (waitingCandidate cl w) = true) (hends : mayEnd row = true) :
      LeasePart row s ((s.leaveWaitList i).grantLease i cl w.configs w.pulse w.due)
  /-- An ACQUIRE is granted at once. -/
  | acquire (c : Client) (tag : Byte) (body : List Byte) (r : AcquireRequest) (i : Slot) (hrow : row = .acquire c)
      (hsent : Sent s c .acquire tag body) (hrequest : acquireRequest body = .ok r) (hquota : (s.ownedSlots c).length < 8)
      (hfree : (s.entry i).body = .free) (hgrant : s.grantable s.waitList r.candidate = true) :
      LeasePart row s (s.grantLease i (r.claim c) r.configs r.pulse r.due)
  /-- An ACQUIRE is queued. -/
  | queue (c : Client) (tag : Byte) (body : List Byte) (r : AcquireRequest) (i : Slot) (hrow : row = .acquire c)
      (hsent : Sent s c .acquire tag body) (hrequest : acquireRequest body = .ok r) (hquota : (s.ownedSlots c).length < 8)
      (hfree : (s.entry i).body = .free) (hgrant : s.grantable s.waitList r.candidate = false) (hwait : r.mayWait = true) :
      LeasePart row s (s.queueRequest i c r)
  | renew (i : Slot) (cl : Claim) (h : Held) (rest : List Byte) (t : Option (Nat × Option Nat))
      (hbody : (s.entry i).body = .held cl h) (hterm : renewTerm rest = .ok t) :
      LeasePart row s (s.setBody i (.held (renewed cl h t).1 (renewed cl h t).2))
  | setWatch (i : Slot) (cl : Claim) (h : Held) (rest : List Byte) (filter : Nat) (ps : List (Line × Sense))
      (hbody : (s.entry i).body = .held cl h) (hrequest : watchRequest rest = .ok (filter, ps))
      (hlines : ∀ p ∈ ps, p.1 ∈ cl.lines) :
      LeasePart row s (s.setBody i (.held cl { h with watch := some (s.armedWatch filter ps) }))
  | clearWatch (i : Slot) (cl : Claim) (h : Held) (hbody : (s.entry i).body = .held cl h) :
      LeasePart row s (s.setBody i (.held cl { h with watch := none }))
  | setPulse (i : Slot) (cl : Claim) (h : Held) (g : PulseGroup) (rest : List Byte) (r : PulseRequest)
      (hbody : (s.entry i).body = .held cl h) (hgroup : h.pulse = some g) (hrequest : pulseRequest rest = .ok r)
      (hcount : ∀ hs, r.highs = some hs → hs.length = (pulseLines h.configs).length)
      (hhighs : ∀ n ∈ (r.setting g.setting).highs, n ≤ (r.setting g.setting).period) :
      LeasePart row s (s.setBody i (.held cl { h with pulse := some { g with update := some (r.update g.setting) } }))
  | reconfigure (i : Slot) (cl : Claim) (h : Held) (rest : List Byte) (ps : LineConfigs)
      (hbody : (s.entry i).body = .held cl h) (hkind : cl.kind = .exclusive) (hpairs : reconfigurePairs rest = .ok ps)
      (hlines : ∀ p ∈ ps, p.1 ∈ cl.lines) (hpulse : ∀ p ∈ ps, isPulseIn h.configs p.1 = false) :
      LeasePart row s (s.reconfigureLease i cl h ps)
  | writeLevels (i : Slot) (cl : Claim) (h : Held) (rest : List Byte) (ps : List (Line × Level))
      (hbody : (s.entry i).body = .held cl h) (hkind : cl.kind = .exclusive) (hpairs : levelPairs rest = .ok ps)
      (hlines : ∀ p ∈ ps, p.1 ∈ cl.lines) (htakes : ∀ p ∈ ps, takesLevel h.configs p.1 = true) :
      LeasePart row s (s.reconfigureLease i cl h (withLevels h.configs ps))
  | convert (r : Request) (cl : Claim) (h : Held) (hbody : (s.entry r.slot).body = .held cl h) (hline : r.line ∈ cl.lines)
      (hmode : s.effective[r.line].mode = .analog) (hconv : h.conv = .none) (hqueue : s.convQueue.length < 8)
      (hsamples : r.samples ∈ [1, 2, 4, 8]) : LeasePart row s (s.requestConversion r)
  | collectLease (c : Client) (i : Slot) (hown : (s.entry i).body.ownedBy c = true) : LeasePart row s (s.fetchLease c i)
  | storeIdlePlan (c : Client) (body : List Byte) (ps : LineConfigs) (hrow : row = .setIdlePlan c) (hc : s.supervisor = c)
      (hpairs : idlePlanPairs body = .ok ps) : LeasePart row s (s.storeIdlePlan ps)
  | countTerm (i : Slot) (cl : Claim) (h : Held) (hbody : (s.entry i).body = .held cl h) (hleft : 2 ≤ h.remaining) :
      LeasePart row s (s.countTerm i cl h)
  | countWait (i : Slot) (cl : Claim) (w : Waiting) (wl : WaitLimit) (hbody : (s.entry i).body = .waiting cl w)
      (hwait : w.wait = some wl) (hleft : 2 ≤ wl.remaining) : LeasePart row s (s.countWait i cl w wl)
  | sample (samples : Vector Level 24) : LeasePart row s (s.takeSample samples)
  | advance (i : Slot) (hdue : s.groupDue i = true) (hwrap : s.atWrap i = false) :
      LeasePart row s (s.mapGroup i Running.advanced)
  | wrap (i : Slot) (hdue : s.groupDue i = true) (hwrap : s.atWrap i = true) : LeasePart row s (s.wrapGroup i)
  | hold (f : InFlight) (v : Int) (hf : s.inFlight = some f) (hphase : f.phase = .acquiring) :
      LeasePart row s { s with inFlight := some { f with phase := .converting v, elapsed := 0 } }
  | nextSample (f : InFlight) (held vdd : Int) (hf : s.inFlight = some f)
      (hleft : f.done + 1 < f.request.samples) : LeasePart row s { s with inFlight := some (f.afterSample held vdd) }
  | complete (f : InFlight) (held vdd : Int) (hf : s.inFlight = some f)
      (hlast : f.request.samples ≤ f.done + 1) : LeasePart row s (s.completeRequest (f.afterSample held vdd))

/-- A part of a row's event. -/
inductive EventPart (row : Instr) (s : State) : State → Prop
  | side {t : State} (h : SidePart row s t) : EventPart row s t
  | lease {t : State} (h : LeasePart row s t) : EventPart row s t
  | clear (p : Phase) (cause : ResetCause) (hrow : isResetRow row = true) (hp : p = .inReset ∨ p = .noSupply) :
      EventPart row s (s.cleared p cause)

/-- A chain of parts of a row's event. -/
abbrev Event (row : Instr) : State → State → Prop := Relation.ReflTransGen (EventPart row)

section
variable {row : Instr} {s t u : State}

theorem Event.refl (s : State) : Event row s s := Relation.ReflTransGen.refl

theorem Event.side (h : Event row s t) (hu : SidePart row t u) : Event row s u := Relation.ReflTransGen.tail h (.side hu)

theorem Event.lease (h : Event row s t) (hu : LeasePart row t u) : Event row s u := Relation.ReflTransGen.tail h (.lease hu)

theorem Event.settled (h : Event row s t) : Event row s t.settleAttention := h.side .settle

/-- A change of the ports and slots alone after which no new command waits. -/
theorem Event.slots (hport : isPortRow row = true) (h : Event row s t) (hframe : u = { t with portI := u.portI, portS := u.portS, slots := u.slots })
    (hslot : ∀ c a, (u.slot c).state = .busy a → (t.slot c).state = .busy a) : Event row s u := by
  refine h.side (.ports hport u (by rw [hframe]) (fun c => .inl ?_) fun c a ha => .inl (hslot c a ha))
  rw [hframe]
  rfl

/-- One slot changes, and no new command comes to wait in it. -/
theorem Event.setSlot (hport : isPortRow row = true) (h : Event row s t) (c : Client) (r : ResponseSlot)
    (hslot : ∀ a, r.state = .busy a → (t.slot c).state = .busy a) : Event row s (t.setSlot c r) := by
  refine h.slots hport rfl fun d a ha => ?_
  rw [State.slot_setSlot] at ha
  split at ha
  · next hd => exact hd ▸ hslot a ha
  · exact ha

theorem Event.respond (h : Event row s t) (c : Client) (tag : Byte) (a : Answer) : Event row s (t.respond c tag a) :=
  h.side (.respond c tag a)

/-! ## The ends of entries and sessions, and the grant scan -/

theorem Event.retireAll (hends : mayEnd row = true) (is : List Slot) (h : Event row s t) : Event row s (t.retireAll is) :=
  State.retireAll_keeps (Event row s) (fun _ i hu => hu.lease (.retire i hends)) is t h

theorem Event.grantScan (hends : mayEnd row = true) (h : Event row s t) : Event row s t.grantScan :=
  t.grantScan_keeps (Event row s) (fun _ older i cl w hu hb hg => hu.lease (.grant older i cl w hb hg hends)) h

theorem State.teardown_eq (s : State) (c : Client) (reason : LastEnd) :
    s.teardown c reason = (s.retireAll (s.ownedSlots c)).endSession c reason := rfl

/-- The end of an entry leaves no slot's owner but makes it FREE. -/
theorem State.entry_retire (s : State) (i j : Slot) :
    (s.retire i).entry j =
      if j = i ∧ (s.entry i).body ≠ .free then ⟨(s.entry i).generation + 1, .free⟩ else s.entry j := by
  unfold State.retire
  split
  · next hi => rw [if_neg fun h => h.2 hi]
  · next hi =>
    rw [State.entry_discardNotices, State.entry_setEntry, State.entry_undoEntry]
    by_cases hj : j = i
    · rw [if_pos hj, if_pos ⟨hj, hi⟩]
    · rw [if_neg hj, if_neg fun h => hj h.1]

/-- The entries of a list become FREE, and no other entry changes. -/
theorem State.entry_retireAll (is : List Slot) (hn : is.Nodup) (j : Slot) : ∀ s : State,
    (s.retireAll is).entry j =
      if j ∈ is ∧ (s.entry j).body ≠ .free then ⟨(s.entry j).generation + 1, .free⟩ else s.entry j := by
  induction is with
  | nil => exact fun s => by simp
  | cons i is ih =>
    intro s
    obtain ⟨hi, hn⟩ := List.nodup_cons.1 hn
    rw [State.retireAll_cons, ih hn, State.entry_retire]
    by_cases hji : j = i
    · subst hji
      simp [hi]
    · simp [hji]

theorem State.slot_retire (s : State) (i : Slot) (c : Client) : (s.retire i).slot c = s.slot c := by
  unfold State.retire
  split
  · rfl
  · simp

theorem State.slot_retireAll (s : State) (is : List Slot) (c : Client) : (s.retireAll is).slot c = s.slot c :=
  State.retireAll_keeps (fun t => t.slot c = s.slot c) (fun t i h => (t.slot_retire i c).trans h) is s rfl

/-- After its entries are FREE a client owns none. -/
theorem State.ownedSlots_retireAll (s : State) (c : Client) : (s.retireAll (s.ownedSlots c)).ownedSlots c = [] := by
  rw [List.eq_nil_iff_forall_not_mem]
  intro j hj
  rw [State.mem_ownedSlots, State.entry_retireAll _ (s.ownedSlots_nodup c)] at hj
  split at hj
  · simp [EntryBody.ownedBy, EntryBody.claim] at hj
  · next h =>
    refine h ⟨(s.mem_ownedSlots c j).2 hj, fun hfree => ?_⟩
    simp [hfree, EntryBody.ownedBy, EntryBody.claim] at hj

/-- A teardown whose client's slot holds no command that needs the session. -/
theorem Event.teardown (hends : mayEnd row = true) (h : Event row s t) (c : Client) (reason : LastEnd)
    (hslot : row = .detach c ∨ ∀ a, (t.slot c).state = .busy a → a.command = .attach) :
    Event row s (t.teardown c reason) := by
  rw [State.teardown_eq]
  refine (h.retireAll hends _).side (.close c reason (t.ownedSlots_retireAll c) ?_)
  rw [State.slot_retireAll]
  exact hslot

/-- A teardown after which the client's slot is emptied. -/
theorem Event.dismissed (hends : mayEnd row = true) (h : Event row s t) (c : Client) (reason : LastEnd) :
    Event row s ((t.teardown c reason).emptySlot c) :=
  (h.retireAll hends (t.ownedSlots c)).side (.dismiss c reason (t.ownedSlots_retireAll c))

/-! ## Ports -/

/-- What a frame that passes its checks says of its client: it is ATTACHED, or the command is an ATTACH (R181). -/
theorem State.frameCheck_served {s : State} {c : Client} {f : FrameIn} {a : Accepted} (h : s.frameCheck c f = .ok a) :
    a.command = .attach ∨ (s.client c).attached = true := by
  unfold State.frameCheck at h
  split at h
  · split at h
    · nomatch h
    · split at h
      · nomatch h
      · split at h
        · nomatch h
        · next cmd _ =>
          split at h
          · nomatch h
          · next hattached =>
            split at h
            · nomatch h
            · obtain rfl := Except.ok.inj h
              by_cases hcmd : cmd = .attach
              · exact .inl hcmd
              · exact .inr (by simpa [hcmd] using hattached)
  · nomatch h

@[simp] theorem State.noteUnread_state (s : State) (c d : Client) : ((s.noteUnread c).slot d).state = (s.slot d).state := by
  unfold State.noteUnread
  split
  · rw [State.slot_setSlot]
    split
    · next hd => rw [hd]
    · rfl
  · rfl

theorem State.noteUnread_eq (s : State) (c : Client) : s.noteUnread c = { s with slots := (s.noteUnread c).slots } := by
  unfold State.noteUnread
  split <;> rfl

theorem Event.noteUnread (hport : isPortRow row = true) (h : Event row s t) (c : Client) : Event row s (t.noteUnread c) := by
  refine h.slots hport ?_ fun d a ha => by simpa using ha
  rw [t.noteUnread_eq]

theorem State.client_keepalive (s : State) (c d : Client) (cmd : Command) :
    (s.keepalive c cmd).client d = if d = c ∧ cmd ≠ .attach then (s.client c).kept else s.client d := by
  unfold State.keepalive
  by_cases hcmd : cmd = .attach
  · simp [hcmd]
  · simp [hcmd]

theorem State.keepalive_eq (s : State) (c : Client) (cmd : Command) :
    s.keepalive c cmd = { s with clients := (s.keepalive c cmd).clients } := by
  unfold State.keepalive
  split <;> rfl

theorem Event.accept (hport : isPortRow row = true) (h : Event row s t) (c : Client) (a : Accepted)
    (hserved : a.command = .attach ∨ (t.client c).attached = true) : Event row s (t.accept c a) := by
  have hframe : t.accept c a = { t with slots := (t.accept c a).slots, clients := (t.accept c a).clients } := by
    unfold State.accept
    dsimp only
    rw [State.noteUnread_eq, t.keepalive_eq]
    rfl
  refine h.side (.ports hport _ (by rw [hframe]) (fun d => ?_) fun d b hb => ?_)
  · have hd : (t.accept c a).client d = (t.keepalive c a.command).client d := by
      unfold State.accept
      dsimp only
      rw [State.client_setSlot, State.noteUnread_eq]
      rfl
    rw [hd, State.client_keepalive]
    split
    · next hdc =>
      obtain ⟨rfl, hcmd⟩ := hdc
      exact .inr ⟨hserved.resolve_left hcmd, rfl⟩
    · exact .inl rfl
  · unfold State.accept at hb
    dsimp only at hb
    rw [State.slot_setSlot] at hb
    split at hb
    · next hd =>
      obtain rfl := SlotState.busy.inj hb
      exact .inr (hd ▸ hserved)
    · rw [State.noteUnread_state, t.keepalive_eq] at hb
      exact .inl hb

theorem Event.frameArrives (hport : isPortRow row = true) (h : Event row s t) (c : Client) (f : FrameIn) : Event row s (t.frameArrives c f) := by
  unfold State.frameArrives
  split
  · exact h
  · split
    · exact (h.noteUnread hport c).respond _ _ _
    · next a ha => exact h.accept hport c a (State.frameCheck_served ha)

theorem Event.ports (hport : isPortRow row = true) (h : Event row s t) (p : PortIState) (q : PortSState) :
    Event row s { t with portI := p, portS := q } := h.slots hport rfl fun _ _ ha => ha

theorem Event.busStop (hport : isPortRow row = true) (h : Event row s t) : Event row s t.busStop := by
  have hfree : Event row s t.busFree := h.ports hport _ _
  unfold State.busStop
  split
  · split
    · exact hfree
    · exact hfree.frameArrives hport _ _
  · exact hfree

theorem Event.busStart (hport : isPortRow row = true) (h : Event row s t) : Event row s t.busStart := by
  unfold State.busStart
  dsimp only
  split
  · exact (h.busStop hport).ports hport _ _
  · exact h.busStop hport

theorem Event.finishRead (hport : isPortRow row = true) (h : Event row s t) (c : Client) : Event row s (t.finishRead c) := h.setSlot hport c _ nofun

theorem Event.readClock (hport : isPortRow row = true) (h : Event row s t) : Event row s t.readClock := by
  unfold State.readClock
  dsimp only
  split
  · split
    · exact (h.ports hport _ _).finishRead hport _
    · exact h.ports hport _ _
  · exact h

theorem Event.addressByte (h : Event row s t) (answer : State → BitVec 7 → State) (a : BitVec 7)
    (hanswer : Event row s (answer t a)) : Event row s (t.addressByte answer a) := by
  unfold State.addressByte
  split
  · exact hanswer
  · exact h

theorem Event.writeAddress (hport : isPortRow row = true) (h : Event row s t) (a : BitVec 7) : Event row s (t.writeAddress a) := by
  unfold State.writeAddress
  split
  · exact h.ports hport _ _
  · split
    · exact h.ports hport _ _
    · exact h.ports hport _ _

theorem Event.readAddress (hport : isPortRow row = true) (h : Event row s t) (a : BitVec 7) : Event row s (t.readAddress a) := by
  unfold State.readAddress
  split
  · exact h.ports hport _ _
  · exact h.ports hport _ _

theorem Event.writeData (hport : isPortRow row = true) (h : Event row s t) (b : Byte) : Event row s (t.writeData b) := by
  unfold State.writeData
  split
  · exact h.ports hport _ _
  · exact h

theorem Event.windowClose (hport : isPortRow row = true) (h : Event row s t) : Event row s t.windowClose := by
  have hclosed : Event row s t.windowClosed := h.ports hport _ _
  unfold State.windowClose
  split
  · split
    · exact hclosed
    · split
      · exact hclosed.setSlot hport _ _ fun _ ha => ha
      · exact hclosed.frameArrives hport _ _
  · exact hclosed

theorem Event.windowByte (hport : isPortRow row = true) (h : Event row s t) (b : Byte) : Event row s (t.windowByte b) := by
  unfold State.windowByte
  dsimp only
  split
  · exact h.ports hport _ _
  · exact h.ports hport _ _
  · split
    · exact (h.ports hport _ _).finishRead hport _
    · exact h.ports hport _ _
  · exact h.ports hport _ _
  · exact h

theorem Event.windowEvent (hport : isPortRow row = true) (h : Event row s t) : ∀ e : WindowEvent, Event row s (t.windowEvent e)
  | .select => (h.windowClose hport).ports hport _ _
  | .opener b => h.windowByte hport b
  | .byte b => h.windowByte hport b
  | .close => h.windowClose hport

/-! ## The clocked rows -/

/-- What a clocked row does at its moment; at another it changes nothing (log 3). -/
theorem Event.ite (due : Bool) (h : due = true → Event row s t) : Event row s (if due then t else s) := by
  split
  · next hdue => exact h hdue
  · exact .refl s

theorem EntryBody.needLive_waiting {b : EntryBody} {cl : Claim} {w : Waiting} (h : b = .waiting cl w) :
    b.needLive = .ok cl := by
  subst h
  rfl

theorem EntryBody.needLive_held {b : EntryBody} {cl : Claim} {h : Held} (hb : b = .held cl h) : b.needLive = .ok cl := by
  subst hb
  rfl

theorem Event.entryTakesTick (hends : mayEnd row = true) (h : Event row s t) (i : Slot) : Event row s (t.entryTakesTick i) := by
  unfold State.entryTakesTick
  split
  · exact h
  · next cl w hb =>
    split
    · exact h
    · next wl hwl =>
      split
      · exact ((h.lease (.entomb i .waitExpired cl (EntryBody.needLive_waiting hb) hends)).grantScan hends).settled
      · next hleft => exact h.lease (.countWait i cl w wl hb hwl (by omega))
  · next cl hd hb =>
    split
    · exact ((h.lease (.entomb i .lapsed cl (EntryBody.needLive_held hb) hends)).grantScan hends).settled
    · next hleft => exact h.lease (.countTerm i cl hd hb (by omega))
  · exact h

theorem Event.tickReachesEntry (hends : mayEnd row = true) (i : Slot) : Event row s (s.tickReachesEntry i) := by
  obtain ⟨-, h⟩ | ⟨-, h⟩ := s.tickReachesEntry_cases i
  · rw [h]
  · rw [h]
    exact ((Event.refl s).side (.takeEntryTick i)).entryTakesTick hends i

theorem Event.clientTakesTick (hends : mayEnd row = true) (h : Event row s t) (c : Client) : Event row s (t.clientTakesTick c) := by
  unfold State.clientTakesTick
  split
  · exact h
  · next n hn =>
    split
    · exact ((h.dismissed hends c .timedOut).grantScan hends).settled
    · next hleft => exact h.side (.countSession c n hn (by omega))

theorem Event.tickReachesClient (hends : mayEnd row = true) (c : Client) : Event row s (s.tickReachesClient c) := by
  unfold State.tickReachesClient
  split
  · exact ((Event.refl s).side (.takeClientTick c)).clientTakesTick hends c
  · exact .refl s

theorem Event.endAcquisition (v : Int) : Event row s (s.endAcquisition v) := by
  unfold State.endAcquisition
  split
  · exact .refl s
  · next f hf =>
    split
    · exact .refl s
    · next hphase => exact (Event.refl s).lease (.hold f _ hf hphase)

theorem Event.endConversion (vdd : Int) : Event row s (s.endConversion vdd) := by
  unfold State.endConversion
  split
  · exact .refl s
  · next f hf =>
    split
    · exact .refl s
    · next held _ =>
      split
      · next hleft => exact (Event.refl s).lease (.nextSample f held vdd hf hleft)
      · next hlast => exact ((Event.refl s).lease (.complete f held vdd hf (Nat.le_of_not_lt hlast))).settled

theorem Event.countGroup (i : Slot) (hdue : s.groupDue i = true) : Event row s (s.countGroup i) := by
  unfold State.countGroup
  split
  · next hwrap => exact (Event.refl s).lease (.wrap i hdue hwrap)
  · next hwrap => exact (Event.refl s).lease (.advance i hdue (by simpa using hwrap))

theorem Event.assertReset (cause : ResetCause) (hrow : isResetRow row = true) : Event row s (s.assertReset cause) := by
  unfold State.assertReset
  split
  · exact .refl s
  · exact .refl s
  · exact .single (.clear .inReset cause hrow (.inl rfl))
  · exact .single (.clear .inReset cause hrow (.inl rfl))

end

end Sys2Proof.Machine
end

section
/-!
PROOF. The event of each row (`exec_event`), assembled from the parts, and the induction over the steps of the machine
(`step_keeps`).
-/

namespace Sys2Proof.Machine

/-! ## Taking a command -/

/-- A row of a command changes nothing, or takes the command that was sent and answers it (log 5). -/
theorem takeCommand_cases (cmd : Command) (run : Client → List Byte → State → State × Answer) (c : Client) (s : State) :
    ((∀ tag body, ¬Sent s c cmd tag body) ∧ takeCommand cmd run c s = s) ∨
      ∃ tag body, Sent s c cmd tag body ∧
        takeCommand cmd run c s = (run c body s).1.respond c tag (run c body s).2 := by
  by_cases h : ∃ tag body, Sent s c cmd tag body
  · obtain ⟨tag, body, hsent⟩ := h
    exact .inr ⟨tag, body, hsent, takeCommand_sent cmd run c s tag body hsent⟩
  · have hnone : ∀ tag body, ¬Sent s c cmd tag body := fun tag body hsent => h ⟨tag, body, hsent⟩
    exact .inl ⟨hnone, takeCommand_absent cmd run c s hnone⟩

theorem Gives.mono {α : Type} {x : Check α} {P Q : α → Prop} (h : Gives x P) (hPQ : ∀ a, P a → Q a) : Gives x Q :=
  fun a ha => hPQ a (h a ha)

theorem Gives.of_forall {α : Type} {x : Check α} {P : α → Prop} (h : ∀ a, P a) : Gives x P := fun a _ => h a

theorem ensure_true_of_ok {b : Bool} {st : Status} {u : Unit} (h : ensure b st = .ok u) : b = true :=
  (ensure_ok_iff b st).1 h

theorem need_eq_ok_iff {α : Type} (x : Option α) (st : Status) (a : α) : need x st = .ok a ↔ x = some a := by
  cases x <;> simp

theorem mem_of_needLines {cl : Claim} {ls : List Line} {u : Unit} (h : needLines cl ls = .ok u) : ∀ l ∈ ls, l ∈ cl.lines := by
  have := ensure_true_of_ok h
  simpa using this

theorem mem_of_needLines_map {α : Type} {cl : Claim} {ps : List (Line × α)} {u : Unit}
    (h : needLines cl (ps.map Prod.fst) = .ok u) : ∀ p ∈ ps, p.1 ∈ cl.lines :=
  fun _ hp => mem_of_needLines h _ (List.mem_map_of_mem hp)

theorem EntryBody.kind_of_needExclusive {b : EntryBody} {p : Claim × Held} (h : b.needExclusive = .ok p) :
    p.1.kind = .exclusive := by
  obtain ⟨q, -, hp⟩ := (check_bind_ok_iff _ _ _).1 h
  dsimp only at hp
  split at hp
  · next hk =>
    obtain rfl : q = p := by simpa using hp
    exact hk
  · simp [wrongState] at hp

theorem State.needSupervisor_ok {s : State} {c : Client} {u : Unit} (h : s.needSupervisor c = .ok u) : s.supervisor = c := by
  have := ensure_true_of_ok h
  simpa using this

theorem number16_le (hi lo : Byte) : number16 hi lo ≤ 65535 := by
  unfold number16
  omega

/-- What the checks of ACQUIRE give: the operands, the quota and the lowest FREE slot (R31 to R34). -/
theorem State.acquireChecks_ok {s : State} {c : Client} {body : List Byte} {p : AcquireRequest × Slot}
    (h : s.acquireChecks c body = .ok p) :
    acquireRequest body = .ok p.1 ∧ (s.ownedSlots c).length < 8 ∧ (s.entry p.2).body = .free := by
  obtain ⟨r, hr, h⟩ := (check_bind_ok_iff _ _ _).1 h
  dsimp only at h
  split at h
  · nomatch h
  · next hq =>
    obtain ⟨i, hi, hp⟩ := (check_bind_ok_iff _ _ _).1 h
    obtain rfl : (r, i) = p := by simpa using hp
    rw [need_eq_ok_iff] at hi
    exact ⟨hr, Nat.lt_of_not_le hq, by simpa using List.find?_some hi⟩

theorem samplesOfByte_mem {b : Byte} {n : Nat} (h : samplesOfByte b = some n) : n ∈ [1, 2, 4, 8] := by
  unfold samplesOfByte at h
  split at h
  · next hb => exact Option.some.inj h ▸ hb
  · nomatch h

theorem convertRequest_samples {rest : List Byte} {p : Line × Nat} (h : convertRequest rest = .ok p) : p.2 ∈ [1, 2, 4, 8] := by
  unfold convertRequest at h
  split at h
  · obtain ⟨n, hn, h⟩ := (check_bind_ok_iff _ _ _).1 h
    obtain ⟨l, -, h⟩ := (check_bind_ok_iff _ _ _).1 h
    obtain rfl : (l, n) = p := by simpa using h
    exact samplesOfByte_mem ((need_eq_ok_iff _ _ _).1 hn)
  · nomatch h

section
variable {row : Instr} {s : State}

/-- A command's event: its action on what its checks gave, where it was sent and they gave it, and the response. -/
theorem takeCommand_event {α : Type} {cmd : Command} {run : Client → List Byte → State → State × Answer} {c : Client}
    {chk : List Byte → Check α} {act : α → State × Answer} (hrun : ∀ body, run c body s = answerWith s (chk body) act)
    (hact : ∀ tag body, Sent s c cmd tag body → Gives (chk body) fun x => Event row s (act x).1) :
    Event row s (takeCommand cmd run c s) := by
  obtain ⟨-, h⟩ | ⟨tag, body, hsent, h⟩ := takeCommand_cases cmd run c s
  · rw [h]
  · rw [h, hrun]
    refine Event.respond ?_ c tag _
    obtain ⟨_, -, hrefused⟩ | ⟨x, hx, hacted⟩ := answerWith_cases s (chk body) act
    · rw [hrefused]
    · rw [hacted]
      exact hact tag body hsent x hx

/-- A command that reports and changes nothing. -/
theorem takeCommand_report {α : Type} {cmd : Command} {run : Client → List Byte → State → State × Answer} {c : Client}
    {chk : List Byte → Check α} {act : α → State × Answer} (hrun : ∀ body, run c body s = answerWith s (chk body) act)
    (hact : ∀ x, (act x).1 = s) : Event row s (takeCommand cmd run c s) :=
  takeCommand_event hrun fun _ _ _ => .of_forall fun x => by rw [hact x]

theorem attach_event (c : Client) : Event (.attach c) s (takeCommand .attach attachReply c s) := by
  refine takeCommand_event (fun _ => rfl) fun tag body hsent => .bind fun p _ => .bind fun a _ => .ok ?_
  have hclosed : Event (.attach c) s (s.closeOldSession c) := by
    unfold State.closeOldSession
    split
    · refine (Event.teardown rfl (.refl s) c .reattached (.inr fun b hb => ?_)).grantScan rfl
      obtain rfl := SlotState.busy.inj (hsent.symm.trans hb)
      rfl
    · exact .refl s
  exact (hclosed.side (.openSession c _ a (number16_le ..))).settled

theorem detach_event (c : Client) : Event (.detach c) s (takeCommand .detach detachReply c s) :=
  takeCommand_event (fun _ => rfl) fun _ _ _ => .of_forall fun _ =>
    ((Event.teardown rfl (.refl s) c .detached (.inl rfl)).grantScan rfl).settled

theorem setAttention_event (c : Client) : Event row s (takeCommand .setAttention setAttentionReply c s) :=
  takeCommand_event (fun _ => rfl) fun _ _ _ => .of_forall fun a => ((Event.refl s).side (.setAttention c a)).settled

theorem acquire_event (c : Client) : Event (.acquire c) s (takeCommand .acquire acquireReply c s) := by
  refine takeCommand_event (fun _ => rfl) fun tag body hsent p hp => ?_
  obtain ⟨hrequest, hquota, hfree⟩ := State.acquireChecks_ok hp
  dsimp only
  split
  · next hg => exact ((Event.refl s).lease (.acquire c tag body p.1 p.2 rfl hsent hrequest hquota hfree hg)).settled
  · next hg =>
    split
    · next hw =>
      exact ((Event.refl s).lease
        (.queue c tag body p.1 p.2 rfl hsent hrequest hquota hfree (by simpa using hg) hw)).settled
    · exact .refl s

/-- The end of an entry, a grant scan, and the attention lines: CANCEL and RELEASE. -/
theorem Event.freed (hends : mayEnd row = true) (i : Slot) : Event row s ((s.retire i).grantScan).settleAttention :=
  (((Event.refl s).lease (.retire i hends)).grantScan hends).settled

theorem renew_event (c : Client) : Event row s (takeCommand .renew renewReply c s) :=
  takeCommand_event (fun _ => rfl) fun _ _ _ => .bind fun b _ => .bind fun t ht => .bind fun i _ => .bind fun p hp =>
    .ok ((Event.refl s).lease (.renew i p.1 p.2 b.2 t ((EntryBody.needHeld_ok_iff _ p).1 hp) ht))

theorem reconfigure_event (c : Client) : Event row s (takeCommand .reconfigure reconfigureReply c s) :=
  takeCommand_event (fun _ => rfl) fun _ _ _ => .bind fun b _ => .bind fun ps hps => .bind fun i _ => .bind fun p hp =>
    .bind fun _ hlines => .bind fun _ hpulse => .ok <| (Event.refl s).lease <|
      .reconfigure i p.1 p.2 b.2 ps (EntryBody.held_of_needExclusive hp) (EntryBody.kind_of_needExclusive hp) hps
        (mem_of_needLines_map hlines) (by simpa using ensure_true_of_ok hpulse)

theorem writeLevels_event (c : Client) : Event row s (takeCommand .writeLevels writeLevelsReply c s) :=
  takeCommand_event (fun _ => rfl) fun _ _ _ => .bind fun b _ => .bind fun ps hps => .bind fun i _ => .bind fun p hp =>
    .bind fun _ hlines => .bind fun _ htakes => .ok <| (Event.refl s).lease <|
      .writeLevels i p.1 p.2 b.2 ps (EntryBody.held_of_needExclusive hp) (EntryBody.kind_of_needExclusive hp) hps
        (mem_of_needLines_map hlines) (by simpa using ensure_true_of_ok htakes)

theorem setWatch_event (c : Client) : Event row s (takeCommand .setWatch setWatchReply c s) :=
  takeCommand_event (fun _ => rfl) fun _ _ _ => .bind fun b _ => .bind fun w hw => .bind fun i _ => .bind fun p hp =>
    .bind fun _ hlines => .ok <| (Event.refl s).lease <|
      .setWatch i p.1 p.2 b.2 w.1 w.2 ((EntryBody.needHeld_ok_iff _ p).1 hp) hw (mem_of_needLines_map hlines)

theorem clearWatch_event (c : Client) : Event row s (takeCommand .clearWatch clearWatchReply c s) :=
  takeCommand_event (fun _ => rfl) fun _ _ _ => .bind fun i _ => .bind fun p hp => .ok <| (Event.refl s).lease <|
    .clearWatch i p.1 p.2 ((EntryBody.needHeld_ok_iff _ p).1 hp)

theorem setPulse_event (c : Client) : Event row s (takeCommand .setPulse setPulseReply c s) :=
  takeCommand_event (fun _ => rfl) fun _ _ _ => .bind fun b _ => .bind fun r hr => .bind fun i _ => .bind fun p hp =>
    .bind fun g hg => .bind fun _ hcount => .bind fun _ hhighs => .ok <| (Event.refl s).lease <|
      .setPulse i p.1 p.2 g b.2 r (EntryBody.held_of_needExclusive hp) ((need_eq_ok_iff _ _ _).1 hg) hr
        (fun hs hr' => by simpa [hr'] using ensure_true_of_ok hcount) (by simpa using ensure_true_of_ok hhighs)

theorem convert_event (c : Client) : Event row s (takeCommand .convert convertReply c s) :=
  takeCommand_event (fun _ => rfl) fun _ _ _ => .bind fun _ _ => .bind fun q hq => .bind fun i _ => .bind fun p hp =>
    .bind fun _ hline => .bind fun _ hmode => .bind fun _ hconv => .bind fun _ hqueue => .ok <| Event.settled <|
      (Event.refl s).lease <|
        .convert ⟨i, q.1, q.2⟩ p.1 p.2 ((EntryBody.needHeld_ok_iff _ p).1 hp) (mem_of_needLines hline _ (by simp))
          (by simpa using ensure_true_of_ok hmode) (by simpa using ensure_true_of_ok hconv)
          (by simpa using ensure_true_of_ok hqueue) (convertRequest_samples hq)

theorem fetchNotice_event (c : Client) : Event row s (takeCommand .fetchNotice fetchNoticeReply c s) := by
  refine takeCommand_event (fun _ => rfl) fun _ _ _ => .of_forall fun _ => ?_
  unfold State.fetch
  split
  · exact ((Event.refl s).side (.collectGain c)).settled
  · split
    · next i hi =>
      have hown := List.find?_some hi
      simp only [Bool.and_eq_true] at hown
      exact ((Event.refl s).lease (.collectLease c i hown.1)).settled
    · exact .refl s

theorem revoke_event (c : Client) : Event (.revoke c) s (takeCommand .revoke revokeReply c s) :=
  takeCommand_event (fun _ => rfl) fun _ _ _ => .bind fun _ _ => .bind fun _ _ => .bind fun i _ => .bind fun cl hcl =>
    .ok (((Event.refl s).lease (.entomb i .revoked cl hcl rfl)).grantScan rfl).settled

theorem fence_event (c : Client) : Event (.fence c) s (takeCommand .fence fenceReply c s) :=
  takeCommand_event (fun _ => rfl) fun _ _ _ => .bind fun _ hc => .of_forall fun _ =>
    (Event.refl s).side (.fence c _ (.inl ⟨rfl, _, rfl⟩) (State.needSupervisor_ok hc))

theorem unfence_event (c : Client) : Event (.unfence c) s (takeCommand .unfence unfenceReply c s) :=
  takeCommand_event (fun _ => rfl) fun _ _ _ => .bind fun _ hc => .of_forall fun _ =>
    (((Event.refl s).side (.fence c _ (.inr rfl) (State.needSupervisor_ok hc))).grantScan rfl).settled

theorem setIdlePlan_event (c : Client) : Event (.setIdlePlan c) s (takeCommand .setIdlePlan setIdlePlanReply c s) :=
  takeCommand_event (fun _ => rfl) fun _ body _ => .bind fun _ hc => fun ps hps =>
    (Event.refl s).lease (.storeIdlePlan c body ps rfl (State.needSupervisor_ok hc) hps)

theorem evict_event (c : Client) : Event (.evict c) s (takeCommand .evict evictReply c s) :=
  takeCommand_event (fun _ => rfl) fun _ _ _ => .of_forall fun n => by
    split
    · exact (((Event.refl s).dismissed rfl n .evicted).grantScan rfl).settled
    · exact .refl s

theorem handOver_event (c : Client) : Event (.handOver c) s (takeCommand .handOver handOverReply c s) :=
  takeCommand_event (fun _ => rfl) fun _ _ _ => .bind fun _ hc => .bind fun n _ => .bind fun _ hn => .ok <| by
    dsimp only
    split
    · exact .refl s
    · exact ((Event.refl s).side
        (.handOver c n rfl (State.needSupervisor_ok hc) (ensure_true_of_ok hn))).settled

theorem setTick_event (c : Client) : Event (.setTick c) s (takeCommand .setTick setTickReply c s) :=
  takeCommand_event (fun _ => rfl) fun _ _ _ => .bind fun _ hc => .of_forall fun r =>
    (Event.refl s).side (.setTick c r rfl (State.needSupervisor_ok hc))

theorem clearAll_event (c : Client) : Event (.clearAll c) s (takeCommand .clearAll clearAllReply c s) :=
  takeCommand_event (fun _ => rfl) fun _ _ _ => .of_forall fun _ =>
    ((Event.retireAll rfl _ (List.foldlRecOn (s.clearedClients c) State.clearClient (motive := Event (.clearAll c) s) (.refl s)
      fun _ ht n _ => ht.dismissed rfl n .cleared)).grantScan rfl).settled

theorem setConverter_event (c : Client) : Event (.setConverter c) s (takeCommand .setConverter setConverterReply c s) :=
  takeCommand_event (fun _ => rfl) fun _ _ _ => .bind fun _ hc => .of_forall fun p =>
    (Event.refl s).side (.setConverter c p.1 p.2 rfl (State.needSupervisor_ok hc))

theorem Event.releaseReset (a b v : Bool) : Event (.resetRelease a b v) s (s.releaseReset ⟨a, b, v⟩) := by
  unfold State.releaseReset
  split
  · next hphase => exact ((Event.refl s).side (.release a b v rfl hphase)).settled
  · exact .refl s

theorem Event.endInitialization : Event row s s.endInitialization := by
  unfold State.endInitialization
  split
  · next n hphase => exact ((Event.refl s).side (.endInitialization n hphase)).settled
  · exact .refl s

end

/-! ## Every row -/

/-- Every row answers a state that parts of its event lead to. -/
theorem exec_event (s : State) : ∀ row : Instr, ∃ t, exec row s = .next t ∧ Event row s t
  | .portIWrite .start => ⟨_, rfl, (Event.refl s).busStart rfl⟩
  | .portIWrite (.address a) => ⟨_, rfl, (Event.refl s).addressByte _ a ((Event.refl s).writeAddress rfl a)⟩
  | .portIWrite (.data b) => ⟨_, rfl, (Event.refl s).writeData rfl b⟩
  | .portIRead .start => ⟨_, rfl, (Event.refl s).busStart rfl⟩
  | .portIRead (.address a) => ⟨_, rfl, (Event.refl s).addressByte _ a ((Event.refl s).readAddress rfl a)⟩
  | .portIRead .clock => ⟨_, rfl, (Event.refl s).readClock rfl⟩
  | .portIRead .stop => ⟨_, rfl, (Event.refl s).busStop rfl⟩
  | .portSCommandWindow e => ⟨_, rfl, (Event.refl s).windowEvent rfl e⟩
  | .portSFetchWindow e => ⟨_, rfl, (Event.refl s).windowEvent rfl e⟩
  | .frameArrival .portI => ⟨_, rfl, (Event.refl s).busStop rfl⟩
  | .frameArrival .portS => ⟨_, rfl, (Event.refl s).windowClose rfl⟩
  | .attach c => ⟨_, rfl, attach_event c⟩
  | .detach c => ⟨_, rfl, detach_event c⟩
  | .setAttention c => ⟨_, rfl, setAttention_event c⟩
  | .ping _ => ⟨_, rfl, takeCommand_report (fun _ => rfl) fun _ => rfl⟩
  | .acquire c => ⟨_, rfl, acquire_event c⟩
  | .cancel _ => ⟨_, rfl, takeCommand_event (fun _ => rfl) fun _ _ _ => .of_forall fun i => .freed rfl i⟩
  | .release _ => ⟨_, rfl, takeCommand_event (fun _ => rfl) fun _ _ _ => .of_forall fun i => .freed rfl i⟩
  | .renew c => ⟨_, rfl, renew_event c⟩
  | .acknowledge _ =>
    ⟨_, rfl, takeCommand_event (fun _ => rfl) fun _ _ _ => .of_forall fun p => ((Event.refl s).lease (.retire p.1 rfl)).settled⟩
  | .reconfigure c => ⟨_, rfl, reconfigure_event c⟩
  | .describe _ => ⟨_, rfl, takeCommand_report (fun _ => rfl) fun _ => rfl⟩
  | .list _ => ⟨_, rfl, takeCommand_report (fun _ => rfl) fun _ => rfl⟩
  | .writeLevels c => ⟨_, rfl, writeLevels_event c⟩
  | .readLevels _ => ⟨_, rfl, takeCommand_report (fun _ => rfl) fun _ => rfl⟩
  | .setWatch c => ⟨_, rfl, setWatch_event c⟩
  | .clearWatch c => ⟨_, rfl, clearWatch_event c⟩
  | .setPulse c => ⟨_, rfl, setPulse_event c⟩
  | .convert c => ⟨_, rfl, convert_event c⟩
  | .fetchNotice c => ⟨_, rfl, fetchNotice_event c⟩
  | .revoke c => ⟨_, rfl, revoke_event c⟩
  | .fence c => ⟨_, rfl, fence_event c⟩
  | .unfence c => ⟨_, rfl, unfence_event c⟩
  | .setIdlePlan c => ⟨_, rfl, setIdlePlan_event c⟩
  | .evict c => ⟨_, rfl, evict_event c⟩
  | .handOver c => ⟨_, rfl, handOver_event c⟩
  | .setTick c => ⟨_, rfl, setTick_event c⟩
  | .clearAll c => ⟨_, rfl, clearAll_event c⟩
  | .survey _ => ⟨_, rfl, takeCommand_report (fun _ => rfl) fun _ => rfl⟩
  | .setConverter c => ⟨_, rfl, setConverter_event c⟩
  | .tick => ⟨_, rfl, .ite _ fun h => by
      obtain ⟨hactive, hdue⟩ := Bool.and_eq_true_iff.1 h
      exact (Event.refl s).side (.emitTick hactive hdue)⟩
  | .termTick i => ⟨_, rfl, .tickReachesEntry rfl i⟩
  | .lapse i => ⟨_, rfl, .tickReachesEntry rfl i⟩
  | .waitTick i => ⟨_, rfl, .tickReachesEntry rfl i⟩
  | .waitExpiry i => ⟨_, rfl, .tickReachesEntry rfl i⟩
  | .sessionCountTick c => ⟨_, rfl, .tickReachesClient rfl c⟩
  | .sessionExpiry c => ⟨_, rfl, .tickReachesClient rfl c⟩
  | .lineSample _ _ => ⟨_, rfl, .ite _ fun _ => ((Event.refl s).lease (.sample _)).settled⟩
  | .generatorWrap i => ⟨_, rfl, .ite _ fun h => by
      obtain ⟨hdue, hwrap⟩ := Bool.and_eq_true_iff.1 h
      exact (Event.refl s).lease (.wrap i hdue hwrap)⟩
  | .acquisitionEnd v => ⟨_, rfl, .ite _ fun _ => .endAcquisition v⟩
  | .sampleConversionEnd v => ⟨_, rfl, .ite _ fun _ => .endConversion v⟩
  | .conversionComplete v => ⟨_, rfl, .ite _ fun _ => .endConversion v⟩
  | .powerOnReset => ⟨_, rfl, .single (.clear _ _ rfl (.inl rfl))⟩
  | .resetPinReset => ⟨_, rfl, .assertReset _ rfl⟩
  | .supplyLowReset => ⟨_, rfl, .assertReset _ rfl⟩
  | .resetRelease a b v => ⟨_, rfl, .releaseReset a b v⟩
  | .initializationEnd => ⟨_, rfl, .ite _ fun _ => .endInitialization⟩
  | .pulseClockCount i => ⟨_, rfl, .ite _ fun h => .countGroup i h⟩
  | .supplyLoss => ⟨_, rfl, .single (.clear _ _ rfl (.inr rfl))⟩

/-- What each part of a row's event keeps, the event keeps. -/
theorem Event.keeps {P : State → Prop} {row : Instr} (hpart : ∀ s t, EventPart row s t → P s → P t) {s t : State}
    (h : Event row s t) (hs : P s) : P t := by
  induction h with
  | refl => exact hs
  | tail _ hlast ih => exact hpart _ _ hlast ih

theorem exec_event_of_next {row : Instr} {s t : State} (h : exec row s = .next t) : Event row s t := by
  obtain ⟨u, hu, hevent⟩ := exec_event s row
  obtain rfl : u = t := Host.Outcome.next.inj (hu.symm.trans h)
  exact hevent

/-- A law that does not read the queue, that a period in which nothing is due keeps, and that every part of an event keeps, is
kept by every step. -/
theorem step_keeps {P : State → Prop} (hqueue : ∀ s rest, P s → P { s with pending := rest })
    (hidle : ∀ s, s.phase.active = true → s.someDue = false → P s → P s.afterPeriod)
    (hpart : ∀ row s t, EventPart row s t → P s → P t) {s t : State} (hs : P s) (h : step s = .next t) : P t := by
  unfold step at h
  split at h
  · obtain rfl : s.idle = t := Host.Outcome.next.inj h
    obtain h | ⟨hactive, hdue, h⟩ := s.idle_cases
    · rwa [h]
    · rw [h]
      exact hidle s hactive hdue hs
  · next row rest _ => exact (exec_event_of_next h).keeps (hpart row) (hqueue s rest hs)

end Sys2Proof.Machine
end

section
/-!
PROOF. The frame of each part of an event, and from it the queue (log 18) and the settings that the supervisor alone changes
(R8, R57, R76, R131, R169).
-/

namespace Sys2Proof.Machine

/-! ## What the parts leave -/

/-- Nothing but leases and what belongs to them differs: entries, wait list, notices, effective configurations, generators,
the converter's requests. -/
def State.LeasesOnly (s t : State) : Prop :=
  t = { s with
    entries := t.entries, waitList := t.waitList, notices := t.notices, effective := t.effective
    generators := t.generators, convQueue := t.convQueue, inFlight := t.inFlight, attnI := t.attnI, attnS := t.attnS }

theorem State.LeasesOnly.trans {s t u : State} (h₁ : s.LeasesOnly t) (h₂ : t.LeasesOnly u) : s.LeasesOnly u :=
  Eq.trans h₂ (by rw [h₁])

theorem State.undoEntry_leasesOnly (s : State) (i : Slot) : s.LeasesOnly (s.undoEntry i) := by
  unfold State.LeasesOnly
  rw [State.undoEntry_eq]

theorem State.retire_leasesOnly (s : State) (i : Slot) : s.LeasesOnly (s.retire i) := by
  unfold State.retire
  split
  · exact Eq.refl s
  · exact (s.undoEntry_leasesOnly i).trans (Eq.refl _)

theorem State.entomb_leasesOnly (s : State) (i : Slot) (r : EndReason) : s.LeasesOnly (s.entomb i r) :=
  (s.undoEntry_leasesOnly i).trans (Eq.refl _)

theorem State.grantLease_leasesOnly (s : State) (i : Slot) (cl : Claim) (configs : LineConfigs) (p : Option PulseSetting)
    (due : Option Nat) : s.LeasesOnly (s.grantLease i cl configs p due) := by
  cases p <;> exact Eq.refl _

theorem State.deliver_leasesOnly (s : State) (i : Slot) (l : Line) (value : Option Nat) (st : ResultStatus) :
    s.LeasesOnly (s.deliver i l value st) := Eq.refl _

theorem startNext_leasesOnly (q : List Request) (s : State) : s.LeasesOnly (startNext q s) :=
  startNext_keeps s.LeasesOnly (fun _ h => h.trans (Eq.refl _)) (fun t _ h => h.trans (t.deliver_leasesOnly ..))
    (fun _ _ _ h _ => h.trans (Eq.refl _)) q s (Eq.refl s)

theorem State.completeRequest_leasesOnly (s : State) (f : InFlight) : s.LeasesOnly (s.completeRequest f) := by
  unfold State.completeRequest
  split
  · exact startNext_leasesOnly _ _
  · exact (s.deliver_leasesOnly ..).trans (startNext_leasesOnly _ _)

theorem State.requestConversion_leasesOnly (s : State) (r : Request) : s.LeasesOnly (s.requestConversion r) := by
  unfold State.requestConversion
  dsimp only
  split
  · refine State.LeasesOnly.trans ?_ (startNext_leasesOnly _ _)
    exact Eq.refl _
  · exact Eq.refl _

theorem State.countTerm_leasesOnly (s : State) (i : Slot) (cl : Claim) (h : Held) : s.LeasesOnly (s.countTerm i cl h) := by
  unfold State.countTerm State.postIfDue
  dsimp only
  split <;> exact Eq.refl _

theorem State.wrapGroup_leasesOnly (s : State) (i : Slot) : s.LeasesOnly (s.wrapGroup i) := by
  unfold State.wrapGroup
  split
  · exact Eq.refl _
  · exact Eq.refl _

section
variable {row : Instr} {s t : State}

/-- A part that changes leases leaves everything else, but for SET IDLE PLAN, a lease fetch and a sample. -/
theorem LeasePart.leasesOnly (h : LeasePart row s t) :
    s.LeasesOnly t ∨ (∃ c ps, row = .setIdlePlan c ∧ s.supervisor = c ∧ t = s.storeIdlePlan ps) ∨
      (∃ c i, (s.entry i).body.ownedBy c = true ∧ t = s.fetchLease c i) ∨ ∃ samples, t = s.takeSample samples := by
  cases h with
  | storeIdlePlan c _ ps hrow hc => exact .inr (.inl ⟨c, ps, hrow, hc, rfl⟩)
  | collectLease c i hown => exact .inr (.inr (.inl ⟨c, i, hown, rfl⟩))
  | sample samples => exact .inr (.inr (.inr ⟨samples, rfl⟩))
  | retire i => exact .inl (s.retire_leasesOnly i)
  | entomb i r => exact .inl (s.entomb_leasesOnly i r)
  | grant older i cl w =>
    have hleave : s.LeasesOnly (s.leaveWaitList i) := Eq.refl _
    exact .inl (hleave.trans (State.grantLease_leasesOnly ..))
  | acquire => exact .inl (s.grantLease_leasesOnly ..)
  | convert r => exact .inl (s.requestConversion_leasesOnly r)
  | countTerm i cl h => exact .inl (s.countTerm_leasesOnly i cl h)
  | wrap i => exact .inl (s.wrapGroup_leasesOnly i)
  | complete => exact .inl (s.completeRequest_leasesOnly _)
  | _ => exact .inl (Eq.refl _)

/-- A part that changes leases leaves everything but them, the idle plan, the cursors and the last samples. -/
theorem LeasePart.frame (h : LeasePart row s t) :
    ({ s with
        idlePlan := t.idlePlan, cursors := t.cursors, lastSample := t.lastSample, samplePosition := t.samplePosition } :
      State).LeasesOnly t := by
  obtain h | ⟨_, _, -, -, rfl⟩ | ⟨_, _, -, rfl⟩ | ⟨_, rfl⟩ := h.leasesOnly
  · unfold State.LeasesOnly
    rw [h]
  · exact Eq.refl _
  · exact Eq.refl _
  · exact Eq.refl _

/-- A side part leaves the leases and what belongs to them. -/
theorem SidePart.leases (h : SidePart row s t) :
    t = { t with
      entries := s.entries, waitList := s.waitList, notices := s.notices, idlePlan := s.idlePlan, effective := s.effective
      lastSample := s.lastSample, samplePosition := s.samplePosition, generators := s.generators, convQueue := s.convQueue
      inFlight := s.inFlight } := by
  cases h with
  | ports _ _ hframe => rw [hframe]
  | _ => rfl

/-! ## The queue -/

theorem EventPart.pending (h : EventPart row s t) : t.pending = s.pending := by
  cases h with
  | side h =>
    cases h with
    | ports _ _ hframe => rw [hframe]
    | _ => rfl
  | lease h => rw [h.frame]
  | clear => rfl

end

/-- Settles O2: every row answers a state (`exec_event`), and no part of its event touches the queue. -/
theorem everyCommandGoesOn : Obligations.EveryCommandGoesOn := by
  unfold Obligations.EveryCommandGoesOn
  intro s row
  obtain ⟨t, ht, hevent⟩ := exec_event s row
  exact ⟨t, ht, hevent.keeps (P := fun u => u.pending = s.pending) (fun _ _ hpart hu => hpart.pending.trans hu) rfl⟩

/-! ## The settings -/

/-- The conclusion of O34, between a state of an event and its start. -/
structure SettingsFollow (row : Instr) (s t : State) : Prop where
  cause : t.cause = s.cause
  straps : (∃ a b v, row = .resetRelease a b v ∧ s.phase = .inReset) ∨ t.straps = s.straps
  supervisor : t.supervisor = s.supervisor ∨ row = .handOver s.supervisor ∨
    ∃ a b v, row = .resetRelease a b v ∧ s.phase = .inReset
  fences : t.fences = s.fences ∨ row = .fence s.supervisor ∨ row = .unfence s.supervisor
  idlePlan : t.idlePlan = s.idlePlan ∨ row = .setIdlePlan s.supervisor
  tickRate : t.tickRate = s.tickRate ∨ row = .setTick s.supervisor
  converter : (t.reference = s.reference ∧ t.acquisition = s.acquisition) ∨ row = .setConverter s.supervisor
  phase : t.phase = s.phase ∨ (∃ a b v, row = .resetRelease a b v ∧ s.phase = .inReset) ∨ t.phase = .running

section
variable {row : Instr} {s t u : State}

theorem SettingsFollow.refl (s : State) : SettingsFollow row s s :=
  ⟨rfl, .inr rfl, .inl rfl, .inl rfl, .inl rfl, .inl rfl, .inl ⟨rfl, rfl⟩, .inl rfl⟩

/-- A part that leaves every setting. -/
theorem SettingsFollow.same (h : SettingsFollow row s t)
    (hu : u = { u with
      cause := t.cause, straps := t.straps, supervisor := t.supervisor, fences := t.fences, idlePlan := t.idlePlan
      tickRate := t.tickRate, reference := t.reference, acquisition := t.acquisition, phase := t.phase }) :
    SettingsFollow row s u := by
  rw [hu]
  exact ⟨h.cause, h.straps, h.supervisor, h.fences, h.idlePlan, h.tickRate, h.converter, h.phase⟩

/-- The client that holds supervision at a supervisor's command other than HAND OVER is the one of its start. -/
theorem SettingsFollow.holder (h : SettingsFollow row s t) {c : Client} (hc : t.supervisor = c)
    (hhand : ∀ d, row ≠ .handOver d) (hrelease : ∀ a b v, row ≠ .resetRelease a b v) : s.supervisor = c := by
  obtain hsame | hrow | ⟨a, b, v, hrow, -⟩ := h.supervisor
  · rw [← hsame, hc]
  · exact absurd hrow (hhand _)
  · exact absurd hrow (hrelease a b v)

theorem SettingsFollow.side (h : SettingsFollow row s t) (hu : SidePart row t u) : SettingsFollow row s u := by
  cases hu with
  | ports _ _ hframe => exact h.same (by rw [hframe])
  | fence c m hrow hc =>
    have hs : s.supervisor = c := h.holder hc (by rintro d rfl; simp at hrow) (by rintro a b v rfl; simp at hrow)
    exact ⟨h.cause, h.straps, h.supervisor, .inr (hs ▸ hrow.imp_left And.left), h.idlePlan, h.tickRate, h.converter, h.phase⟩
  | handOver c n hrow hc hn =>
    subst hrow
    have hs : t.supervisor = s.supervisor ∨ c = s.supervisor := by
      obtain hsame | hrow | ⟨a, b, v, hrow, -⟩ := h.supervisor
      · exact .inl hsame
      · exact .inr (Instr.handOver.inj hrow)
      · nomatch hrow
    have hc : c = s.supervisor := hs.elim (fun hs => hc ▸ hs) id
    exact ⟨h.cause, h.straps, .inr (.inl (hc ▸ rfl)), h.fences, h.idlePlan, h.tickRate, h.converter, h.phase⟩
  | setTick c r hrow hc =>
    have hs : s.supervisor = c := h.holder hc (by rintro d rfl; nomatch hrow) (by rintro a b v rfl; nomatch hrow)
    exact ⟨h.cause, h.straps, h.supervisor, h.fences, h.idlePlan, .inr (hs ▸ hrow), h.converter, h.phase⟩
  | setConverter c r a hrow hc =>
    have hs : s.supervisor = c := h.holder hc (by rintro d rfl; nomatch hrow) (by rintro a b v rfl; nomatch hrow)
    exact ⟨h.cause, h.straps, h.supervisor, h.fences, h.idlePlan, h.tickRate, .inr (hs ▸ hrow), h.phase⟩
  | release a b v hrow hphase =>
    have hrelease : ∃ a b v, row = .resetRelease a b v ∧ s.phase = .inReset := by
      obtain hsame | hdone | hrunning := h.phase
      · exact ⟨a, b, v, hrow, hsame ▸ hphase⟩
      · exact hdone
      · exact absurd (hphase.symm.trans hrunning) nofun
    exact ⟨h.cause, .inl hrelease, .inr (.inr hrelease), h.fences, h.idlePlan, h.tickRate, h.converter,
      .inr (.inl hrelease)⟩
  | endInitialization n hphase =>
    exact ⟨h.cause, h.straps, h.supervisor, h.fences, h.idlePlan, h.tickRate, h.converter, .inr (.inr rfl)⟩
  | _ => exact h.same rfl

theorem SettingsFollow.lease (h : SettingsFollow row s t) (hu : LeasePart row t u) : SettingsFollow row s u := by
  obtain hframe | ⟨c, ps, rfl, hc, rfl⟩ | ⟨c, i, -, rfl⟩ | ⟨samples, rfl⟩ := hu.leasesOnly
  · exact h.same (by rw [hframe])
  · have hs : s.supervisor = c := h.holder hc nofun nofun
    exact ⟨h.cause, h.straps, h.supervisor, h.fences, .inr (hs ▸ rfl), h.tickRate, h.converter, h.phase⟩
  · exact h.same rfl
  · exact h.same rfl

end

/-- Settles O34: each part of the event of a row that is no reset row leaves the settings, or is that of the supervisor's own
command (`SettingsFollow.side`, `SettingsFollow.lease`). -/
theorem onlyTheSupervisorChangesSettings : Obligations.OnlyTheSupervisorChangesSettings := by
  unfold Obligations.OnlyTheSupervisorChangesSettings
  intro s t row ht hrow
  have hfollow : SettingsFollow row s t := (exec_event_of_next ht).keeps (P := SettingsFollow row s)
    (fun u v hpart hu => by
      cases hpart with
      | side h => exact hu.side h
      | lease h => exact hu.lease h
      | clear p cause hreset => exact absurd (hrow.symm.trans hreset) nofun) (.refl s)
  exact ⟨hfollow.cause, hfollow.straps, hfollow.supervisor, hfollow.fences, hfollow.idlePlan, hfollow.tickRate,
    hfollow.converter⟩

end Sys2Proof.Machine
end

section
/-!
PROOF. What each part of an event does to the entries: the entry lemmas of the operations, and one relation between the body of
an entry before and after a part (`BodyChange`: an edit, or the grant of a request), so that a law of single entries is looked at
once for each change of a body (`EventPart.keeps_bodies`).
-/

namespace Sys2Proof.Machine

/-! ## Entries after the operations -/

theorem State.entry_entomb (s : State) (i j : Slot) (r : EndReason) :
    (s.entomb i r).entry j = if j = i then ⟨(s.entry i).generation, (s.entry i).body.tombstone r⟩ else s.entry j := by
  unfold State.entomb
  simp

theorem State.entry_grantLease (s : State) (i j : Slot) (cl : Claim) (configs : LineConfigs) (p : Option PulseSetting)
    (due : Option Nat) :
    (s.grantLease i cl configs p due).entry j =
      if j = i then
        ⟨(s.entry i).generation, .held cl (heldAtGrant cl configs p (s.assigned (pulseLines configs)) due)⟩
      else s.entry j := by
  have h : (s.grantLease i cl configs p due).entry j =
      (s.setBody i (.held cl (heldAtGrant cl configs p (s.assigned (pulseLines configs)) due))).entry j := by
    unfold State.entry
    rw [State.grantLease_entries]
  rw [h, State.entry_setBody]

theorem State.entry_queueRequest (s : State) (i j : Slot) (c : Client) (r : AcquireRequest) :
    (s.queueRequest i c r).entry j =
      if j = i then ⟨(s.entry i).generation, .waiting (r.claim c) (r.waiting s.nextArrival)⟩ else s.entry j :=
  s.entry_setBody i j _

theorem State.entry_reconfigureLease (s : State) (i j : Slot) (cl : Claim) (h : Held) (ps : LineConfigs) :
    (s.reconfigureLease i cl h ps).entry j =
      if j = i then ⟨(s.entry i).generation, .held cl { h with configs := replaced h.configs ps }⟩ else s.entry j :=
  s.entry_setBody i j _

theorem State.entry_fetchLease (s : State) (c : Client) (i j : Slot) :
    (s.fetchLease c i).entry j =
      if j = i then ⟨(s.entry i).generation,
        if (s.noticesOf i).converted then (s.entry i).body.overrunCleared else (s.entry i).body⟩
      else s.entry j :=
  s.entry_setBody i j _

theorem State.entry_postIfDue (s : State) (i j : Slot) (h : Held) : (s.postIfDue i h).entry j = s.entry j := by
  unfold State.entry
  rw [State.postIfDue_entries]

theorem State.entry_countTerm (s : State) (i j : Slot) (cl : Claim) (h : Held) :
    (s.countTerm i cl h).entry j =
      if j = i then ⟨(s.entry i).generation, .held cl { h with remaining := h.remaining - 1 }⟩ else s.entry j := by
  unfold State.countTerm
  dsimp only
  rw [State.entry_settleAttention, State.entry_postIfDue, State.entry_setBody]

theorem State.entry_countWait (s : State) (i j : Slot) (cl : Claim) (w : Waiting) (wl : WaitLimit) :
    (s.countWait i cl w wl).entry j =
      if j = i then
        ⟨(s.entry i).generation, .waiting cl { w with wait := some { wl with remaining := wl.remaining - 1 } }⟩
      else s.entry j :=
  s.entry_setBody i j _

theorem State.entry_takeSample (s : State) (samples : Vector Level 24) (i : Slot) :
    (s.takeSample samples).entry i = ⟨(s.entry i).generation, (s.entry i).body.sampled samples⟩ := tabulate_getElem _ i

theorem State.entry_deliver (s : State) (i j : Slot) (l : Line) (value : Option Nat) (st : ResultStatus) :
    (s.deliver i l value st).entry j =
      if j = i then
        ⟨(s.entry i).generation, (s.entry i).body.withResult ⟨l, value, st, (s.noticesOf i).converted⟩⟩
      else s.entry j :=
  s.entry_setBody i j _

theorem EntryBody.pendingUpdate_some {b : EntryBody} {cl : Claim} {h : Held} {g : PulseGroup} {u : PulseUpdate}
    (hb : b.pendingUpdate = some (cl, h, g, u)) : b = .held cl h ∧ h.pulse = some g ∧ g.update = some u := by
  unfold EntryBody.pendingUpdate at hb
  split at hb
  · split at hb
    · nomatch hb
    · next cl' h' _ g' hg' =>
      obtain ⟨u', hu', heq⟩ := Option.map_eq_some_iff.1 hb
      obtain ⟨rfl, rfl, rfl, rfl⟩ : cl' = cl ∧ h' = h ∧ g' = g ∧ u' = u := by simpa [Prod.ext_iff] using heq
      exact ⟨rfl, hg', hu'⟩
  · nomatch hb

/-- A wrap changes no entry but the one whose pending update it applies (R124). -/
theorem State.entry_wrapGroup (s : State) (i j : Slot) :
    (s.wrapGroup i).entry j = s.entry j ∨
      ∃ cl h g u, (s.entry i).body = .held cl h ∧ h.pulse = some g ∧ g.update = some u ∧ j = i ∧
        (s.wrapGroup i).entry j =
          ⟨(s.entry i).generation, .held cl { h with pulse := some { g with setting := u.setting, update := none } }⟩ := by
  unfold State.wrapGroup
  split
  · next cl h g u hb =>
    obtain ⟨hbody, hg, hu⟩ := EntryBody.pendingUpdate_some hb
    have hentry : (s.applyUpdate i cl h g u).entry j = (s.setBody i
        (.held cl { h with pulse := some { g with setting := u.setting, update := none } })).entry j := rfl
    rw [hentry, State.entry_setBody]
    split
    · next hj => exact .inr ⟨cl, h, g, u, hbody, hg, hu, hj, rfl⟩
    · exact .inl rfl
  · exact .inl rfl

/-! ## Changes of a body -/

/-- The body of an entry before and after a part of an event that grants nothing. -/
inductive BodyEdit : EntryBody → EntryBody → Prop
  | freed (b : EntryBody) : BodyEdit b .free
  | entombed (b : EntryBody) (r : EndReason) (cl : Claim) (hlive : b.needLive = .ok cl) : BodyEdit b (b.tombstone r)
  | queued (c : Client) (body : List Byte) (r : AcquireRequest) (n : Nat) (hrequest : acquireRequest body = .ok r) :
      BodyEdit .free (.waiting (r.claim c) (r.waiting n))
  | renewed (cl : Claim) (h : Held) (rest : List Byte) (t : Option (Nat × Option Nat)) (hterm : renewTerm rest = .ok t) :
      BodyEdit (.held cl h) (.held (renewed cl h t).1 (renewed cl h t).2)
  | watched (s : State) (cl : Claim) (h : Held) (rest : List Byte) (filter : Nat) (ps : List (Line × Sense))
      (hrequest : watchRequest rest = .ok (filter, ps)) (hlines : ∀ p ∈ ps, p.1 ∈ cl.lines) :
      BodyEdit (.held cl h) (.held cl { h with watch := some (s.armedWatch filter ps) })
  | unwatched (cl : Claim) (h : Held) : BodyEdit (.held cl h) (.held cl { h with watch := none })
  | pulsed (cl : Claim) (h : Held) (g : PulseGroup) (rest : List Byte) (r : PulseRequest) (hgroup : h.pulse = some g)
      (hrequest : pulseRequest rest = .ok r)
      (hcount : ∀ hs, r.highs = some hs → hs.length = (pulseLines h.configs).length)
      (hhighs : ∀ n ∈ (r.setting g.setting).highs, n ≤ (r.setting g.setting).period) :
      BodyEdit (.held cl h) (.held cl { h with pulse := some { g with update := some (r.update g.setting) } })
  | reconfigured (cl : Claim) (h : Held) (rest : List Byte) (ps : LineConfigs) (hkind : cl.kind = .exclusive)
      (hpairs : reconfigurePairs rest = .ok ps) (hpulse : ∀ p ∈ ps, isPulseIn h.configs p.1 = false) :
      BodyEdit (.held cl h) (.held cl { h with configs := replaced h.configs ps })
  | leveled (cl : Claim) (h : Held) (ps : List (Line × Level)) (hkind : cl.kind = .exclusive)
      (htakes : ∀ p ∈ ps, takesLevel h.configs p.1 = true) :
      BodyEdit (.held cl h) (.held cl { h with configs := replaced h.configs (withLevels h.configs ps) })
  | converting (b : EntryBody) (v : ConvState) : BodyEdit b (b.withConv v)
  | converted (b : EntryBody) (r : ConvResult) : BodyEdit b (b.withResult r)
  | collected (b : EntryBody) : BodyEdit b b.overrunCleared
  | termCounted (cl : Claim) (h : Held) (hleft : 2 ≤ h.remaining) :
      BodyEdit (.held cl h) (.held cl { h with remaining := h.remaining - 1 })
  | waitCounted (cl : Claim) (w : Waiting) (wl : WaitLimit) (hwait : w.wait = some wl) (hleft : 2 ≤ wl.remaining) :
      BodyEdit (.waiting cl w) (.waiting cl { w with wait := some { wl with remaining := wl.remaining - 1 } })
  | sampled (b : EntryBody) (samples : Vector Level 24) : BodyEdit b (b.sampled samples)
  | pulseApplied (cl : Claim) (h : Held) (g : PulseGroup) (u : PulseUpdate) (hgroup : h.pulse = some g)
      (hupdate : g.update = some u) :
      BodyEdit (.held cl h) (.held cl { h with pulse := some { g with setting := u.setting, update := none } })

/-- The body of an entry that is granted, with what the request asks for: a waiting entry, or a FREE one for an ACQUIRE. -/
inductive Requests : EntryBody → Claim → LineConfigs → Option PulseSetting → Option Nat → Prop
  | waiting (cl : Claim) (w : Waiting) : Requests (.waiting cl w) cl w.configs w.pulse w.due
  | acquire (c : Client) (body : List Byte) (r : AcquireRequest) (hrequest : acquireRequest body = .ok r) :
      Requests .free (r.claim c) r.configs r.pulse r.due

/-- The body of an entry before and after a part of an event. -/
inductive BodyChange : EntryBody → EntryBody → Prop
  | edit {b b' : EntryBody} (h : BodyEdit b b') : BodyChange b b'
  | granted {b : EntryBody} {cl : Claim} {configs : LineConfigs} {pulse : Option PulseSetting} {due : Option Nat}
      (hrequest : Requests b cl configs pulse due) (gs : List GenIx) (hfresh : gs.Nodup)
      (hcount : gs.length = (pulseLines configs).length) : BodyChange b (.held cl (heldAtGrant cl configs pulse gs due))

/-- A part of an event that grants one request, which meets the grant conditions (R52). -/
inductive GrantPart (s : State) : State → Prop
  | mk (older : List Slot) (i : Slot) (cl : Claim) (configs : LineConfigs) (pulse : Option PulseSetting) (due : Option Nat)
      (u : State) (hu : u = s ∨ u = s.leaveWaitList i)
      (hgrant : s.grantable older ⟨cl.kind, cl.lines, (pulseLines configs).length⟩ = true)
      (hrequest : Requests (s.entry i).body cl configs pulse due) : GrantPart s (u.grantLease i cl configs pulse due)

/-- Some edits of a body, one after another. -/
abbrev BodyEdits : EntryBody → EntryBody → Prop := Relation.ReflTransGen BodyEdit

/-- The body of each entry is edited or as before. -/
def State.BodiesEdit (s t : State) : Prop := ∀ i : Slot, BodyEdits (s.entry i).body (t.entry i).body

theorem State.BodiesEdit.of_entries {s t : State} (h : t.entries = s.entries) : s.BodiesEdit t := by
  intro i
  unfold State.entry
  rw [h]

/-- One slot takes a new body. -/
theorem State.BodiesEdit.of_entry {s t : State} (i : Slot) (g : Fin 8) (b : EntryBody)
    (ht : ∀ j, t.entry j = if j = i then ⟨g, b⟩ else s.entry j) (hb : BodyEdits (s.entry i).body b) : s.BodiesEdit t := by
  intro j
  rw [ht]
  split
  · next hj => exact hj ▸ hb
  · exact .refl

theorem State.BodiesEdit.trans {s t u : State} (h₁ : s.BodiesEdit t) (h₂ : t.BodiesEdit u) : s.BodiesEdit u :=
  fun i => (h₁ i).trans (h₂ i)

theorem State.deliver_edits (s : State) (i : Slot) (l : Line) (value : Option Nat) (st : ResultStatus) :
    s.BodiesEdit (s.deliver i l value st) :=
  .of_entry i _ _ (s.entry_deliver i · l value st) (.single (.converted _ _))

theorem startNext_edits (q : List Request) (s : State) : s.BodiesEdit (startNext q s) :=
  startNext_keeps s.BodiesEdit (fun _ h => h.trans (.of_entries rfl)) (fun t _ h => h.trans (t.deliver_edits _ _ _ _))
    (fun t r _ h _ => h.trans (.of_entry r.slot _ _ (t.entry_setBody r.slot · _) (.single (.converting _ _)))) q s
    (.of_entries rfl)

theorem State.completeRequest_edits (s : State) (f : InFlight) : s.BodiesEdit (s.completeRequest f) := by
  unfold State.completeRequest
  split
  · exact startNext_edits _ _
  · exact (s.deliver_edits _ _ _ _).trans (startNext_edits _ _)

theorem State.requestConversion_edits (s : State) (r : Request) : s.BodiesEdit (s.requestConversion r) := by
  have hq : s.BodiesEdit
      { s.setBody r.slot ((s.entry r.slot).body.withConv .queued) with convQueue := s.convQueue ++ [r] } :=
    .of_entry r.slot _ _ (s.entry_setBody r.slot · _) (.single (.converting _ _))
  unfold State.requestConversion
  dsimp only
  split
  · exact hq.trans (startNext_edits _ _)
  · exact hq

/-! ## The generators of a grant -/

theorem State.assigned_nodup (s : State) (ls : List Line) : (s.assigned ls).Nodup :=
  (List.take_sublist _ _).nodup s.freeGenerators_nodup

theorem State.length_assigned (s : State) (ls : List Line) :
    (s.assigned ls).length = min ls.length s.freeGenerators.length := List.length_take

/-- The conditions of a grant, one by one (R52). -/
theorem State.grantable_iff (s : State) (older : List Slot) (k : Candidate) :
    s.grantable older k = true ↔
      s.unfencedFor k = true ∧ s.unheldFor k = true ∧ s.unwaitedFor older k = true ∧ s.generatorsFor older k = true := by
  simp [State.grantable, and_assoc]

/-- A grantable candidate's PULSE lines all get a generator (R52, condition d). -/
theorem State.length_assigned_of_grantable {s : State} {older : List Slot} {k : Candidate} {ls : List Line}
    (hg : s.grantable older k = true) (hk : k.pulses = ls.length) : (s.assigned ls).length = ls.length := by
  obtain ⟨-, -, -, hgen⟩ := (s.grantable_iff older k).1 hg
  rw [State.length_assigned, Nat.min_eq_left]
  unfold State.generatorsFor at hgen
  simp only [hk, Bool.or_eq_true, decide_eq_true_eq, Bool.and_eq_true] at hgen
  omega

/-! ## Every part -/

section
variable {row : Instr} {s t : State}

/-- A part that changes leases grants one request, or edits the bodies of entries. -/
theorem LeasePart.grants_or_edits (h : LeasePart row s t) : GrantPart s t ∨ s.BodiesEdit t := by
  cases h with
  | grant older i cl w hbody hgrant =>
    exact .inl (.mk older i cl _ _ _ _ (.inr rfl) hgrant (hbody ▸ .waiting cl w))
  | acquire c tag body r i hrow hsent hrequest hquota hfree hgrant =>
    exact .inl (.mk s.waitList i _ _ _ _ s (.inl rfl) hgrant (hfree ▸ .acquire c body r hrequest))
  | retire i =>
    refine .inr fun j => ?_
    rw [State.entry_retire]
    split
    · exact .single (.freed _)
    · exact .refl
  | entomb i r cl hlive => exact .inr (.of_entry i _ _ (s.entry_entomb i · r) (.single (.entombed _ r cl hlive)))
  | queue c tag body r i hrow hsent hrequest hquota hfree =>
    exact .inr (.of_entry i _ _ (s.entry_queueRequest i · c r) (hfree ▸ .single (.queued c body r _ hrequest)))
  | renew i cl h rest t hbody hterm =>
    exact .inr (.of_entry i _ _ (s.entry_setBody i · _) (hbody ▸ .single (.renewed cl h rest t hterm)))
  | setWatch i cl h rest filter ps hbody hrequest hlines =>
    exact .inr (.of_entry i _ _ (s.entry_setBody i · _) (hbody ▸ .single (.watched s cl h rest filter ps hrequest hlines)))
  | clearWatch i cl h hbody => exact .inr (.of_entry i _ _ (s.entry_setBody i · _) (hbody ▸ .single (.unwatched cl h)))
  | setPulse i cl h g rest r hbody hgroup hrequest hcount hhighs =>
    exact .inr (.of_entry i _ _ (s.entry_setBody i · _)
      (hbody ▸ .single (.pulsed cl h g rest r hgroup hrequest hcount hhighs)))
  | reconfigure i cl h rest ps hbody hkind hpairs _ hpulse =>
    exact .inr (.of_entry i _ _ (s.entry_reconfigureLease i · cl h ps)
      (hbody ▸ .single (.reconfigured cl h rest ps hkind hpairs hpulse)))
  | writeLevels i cl h rest ps hbody hkind _ _ htakes =>
    exact .inr (.of_entry i _ _ (s.entry_reconfigureLease i · cl h _) (hbody ▸ .single (.leveled cl h ps hkind htakes)))
  | convert r => exact .inr (s.requestConversion_edits r)
  | collectLease c i =>
    refine .inr (.of_entry i _ _ (s.entry_fetchLease c i ·) ?_)
    split
    · exact .single (.collected _)
    · exact .refl
  | countTerm i cl h hbody hleft =>
    exact .inr (.of_entry i _ _ (s.entry_countTerm i · cl h) (hbody ▸ .single (.termCounted cl h hleft)))
  | countWait i cl w wl hbody hwait hleft =>
    exact .inr (.of_entry i _ _ (s.entry_countWait i · cl w wl) (hbody ▸ .single (.waitCounted cl w wl hwait hleft)))
  | sample samples =>
    refine .inr fun i => ?_
    rw [State.entry_takeSample]
    exact .single (.sampled _ samples)
  | wrap i =>
    refine .inr fun j => ?_
    obtain h | ⟨cl, h, g, u, hbody, hg, hu, rfl, hentry⟩ := s.entry_wrapGroup i j
    · rw [h]
    · rw [hentry, hbody]
      exact .single (.pulseApplied cl h g u hg hu)
  | storeIdlePlan => exact .inr (.of_entries rfl)
  | advance => exact .inr (.of_entries rfl)
  | hold => exact .inr (.of_entries rfl)
  | nextSample => exact .inr (.of_entries rfl)
  | complete => exact .inr (s.completeRequest_edits _)

theorem EventPart.grants_or_edits (h : EventPart row s t) : GrantPart s t ∨ s.BodiesEdit t := by
  cases h with
  | side h => exact .inr (.of_entries (by rw [h.leases]))
  | lease h => exact h.grants_or_edits
  | clear p cause =>
    refine .inr fun i => ?_
    have : ((s.cleared p cause).entry i).body = .free := by simp [State.entry, State.cleared, State.reset]
    rw [this]
    exact .single (.freed _)

/-- A grant makes the one entry HELD, with a generator for each of its PULSE lines (R68, R70). -/
theorem GrantPart.entry (h : GrantPart s t) :
    ∃ (older : List Slot) (i : Slot) (cl : Claim) (configs : LineConfigs) (pulse : Option PulseSetting) (due : Option Nat)
      (gs : List GenIx),
      s.grantable older ⟨cl.kind, cl.lines, (pulseLines configs).length⟩ = true ∧
        Requests (s.entry i).body cl configs pulse due ∧ gs.Nodup ∧ gs.length = (pulseLines configs).length ∧
        ∀ j, t.entry j =
          if j = i then ⟨(s.entry i).generation, .held cl (heldAtGrant cl configs pulse gs due)⟩ else s.entry j := by
  obtain ⟨older, i, cl, configs, pulse, due, u, hu, hgrant, hrequest⟩ := h
  refine ⟨older, i, cl, configs, pulse, due, _, hgrant, hrequest, s.assigned_nodup _,
    State.length_assigned_of_grantable hgrant rfl, fun j => ?_⟩
  obtain rfl | rfl := hu <;> exact State.entry_grantLease ..

/-- A law of single entries that every change of a body keeps. -/
theorem EventPart.keeps_bodies {Q : EntryBody → Prop} (hQ : ∀ b b', BodyChange b b' → Q b → Q b') (h : EventPart row s t)
    (hs : ∀ i, Q (s.entry i).body) (i : Slot) : Q (t.entry i).body := by
  obtain h | h := h.grants_or_edits
  · obtain ⟨_, k, cl, configs, pulse, due, gs, -, hrequest, hfresh, hcount, hentry⟩ := h.entry
    rw [hentry]
    split
    · exact hQ _ _ (.granted hrequest gs hfresh hcount) (hs k)
    · exact hs i
  · have hi := h i
    have hstart := hs i
    generalize (s.entry i).body = b, (t.entry i).body = b' at hi hstart
    induction hi with
    | refl => exact hstart
    | tail _ hlast ih => exact hQ _ _ (.edit hlast) ih

end

end Sys2Proof.Machine
end

section
/-!
PROOF. Holders stay apart (R56), and the wait list stays exact (R64, R65). An edit of a body gives no line a new holder, and a
grant only lines that no HELD lease conflicts about. What the wait list's law reads of an entry is its view as a waiter
(`EntryBody.waiter`): it changes by the end of an entry, by a grant, and by a request that joins the tail.
-/

namespace Sys2Proof.Machine

/-! ## Holders -/

/-- An edit of a body makes its entry no holder of a line that it did not hold. -/
theorem BodyEdit.holds_le {b b' : EntryBody} (h : BodyEdit b b') (l : Line) :
    (b'.holdsExclusive l = true → b.holdsExclusive l = true) ∧ (b'.holdsShared l = true → b.holdsShared l = true) := by
  have same (hclaim : b'.heldClaim = b.heldClaim) :
      (b'.holdsExclusive l = true → b.holdsExclusive l = true) ∧ (b'.holdsShared l = true → b.holdsShared l = true) := by
    unfold EntryBody.holdsExclusive EntryBody.holdsShared
    rw [hclaim]
    exact ⟨id, id⟩
  have none (hclaim : b'.heldClaim = none) :
      (b'.holdsExclusive l = true → b.holdsExclusive l = true) ∧ (b'.holdsShared l = true → b.holdsShared l = true) := by
    unfold EntryBody.holdsExclusive EntryBody.holdsShared
    rw [hclaim]
    exact ⟨nofun, nofun⟩
  cases h with
  | freed => exact none rfl
  | entombed r cl hlive => exact none (by cases b <;> rfl)
  | queued => exact none rfl
  | renewed cl h rest t hterm => cases t <;> exact ⟨id, id⟩
  | converting => exact same (by cases b <;> rfl)
  | converted => exact same (by cases b <;> rfl)
  | collected => exact same (by cases b <;> rfl)
  | sampled => exact same (by cases b <;> rfl)
  | waitCounted => exact none rfl
  | _ => exact same rfl

theorem BodyEdits.holds_le {b b' : EntryBody} (h : BodyEdits b b') (l : Line) :
    (b'.holdsExclusive l = true → b.holdsExclusive l = true) ∧ (b'.holdsShared l = true → b.holdsShared l = true) := by
  induction h with
  | refl => exact ⟨id, id⟩
  | tail _ hlast ih => exact ⟨fun h => ih.1 ((hlast.holds_le l).1 h), fun h => ih.2 ((hlast.holds_le l).2 h)⟩

theorem HolderLaw.of_holds_le {s t : State} (hs : HolderLaw s)
    (h : ∀ (i : Slot) (l : Line), ((t.entry i).body.holdsExclusive l = true → (s.entry i).body.holdsExclusive l = true) ∧
      ((t.entry i).body.holdsShared l = true → (s.entry i).body.holdsShared l = true)) : HolderLaw t := by
  intro i j hij l hl
  obtain ⟨hex, hsh⟩ := hs i j hij l ((h i l).1 hl)
  exact ⟨Bool.eq_false_iff.2 fun hc => by simp [(h j l).1 hc] at hex,
    Bool.eq_false_iff.2 fun hc => by simp [(h j l).2 hc] at hsh⟩

theorem EntryBody.holdsExclusive_iff (b : EntryBody) (l : Line) :
    b.holdsExclusive l = true ↔ ∃ cl, b.heldClaim = some cl ∧ cl.kind = .exclusive ∧ l ∈ cl.lines := by
  unfold EntryBody.holdsExclusive
  cases b.heldClaim <;> simp

theorem EntryBody.holdsShared_iff (b : EntryBody) (l : Line) :
    b.holdsShared l = true ↔ ∃ cl, b.heldClaim = some cl ∧ cl.kind = .shared ∧ l ∈ cl.lines := by
  unfold EntryBody.holdsShared
  cases b.heldClaim <;> simp

theorem claimsConflict_iff (k₁ k₂ : Kind) (ls₁ ls₂ : List Line) :
    claimsConflict k₁ ls₁ k₂ ls₂ = true ↔ (k₁ = .exclusive ∨ k₂ = .exclusive) ∧ ∃ l ∈ ls₁, l ∈ ls₂ := by
  simp [claimsConflict]

theorem EntryBody.heldConflict_iff (b : EntryBody) (k : Candidate) :
    b.heldConflict k = true ↔
      ∃ cl, b.heldClaim = some cl ∧ (cl.kind = .exclusive ∨ k.kind = .exclusive) ∧ ∃ l ∈ cl.lines, l ∈ k.lines := by
  unfold EntryBody.heldConflict
  cases b.heldClaim <;> simp [claimsConflict_iff]

theorem State.unheldFor_iff (s : State) (k : Candidate) :
    s.unheldFor k = true ↔ ∀ i : Slot, (s.entry i).body.heldConflict k = false := by
  simp [State.unheldFor]

/-- A line of a candidate that no HELD lease conflicts with has no exclusive holder, and none at all if the candidate is
EXCLUSIVE (R51). -/
theorem State.unheldFor_apart {s : State} {k : Candidate} (h : s.unheldFor k = true) (i : Slot) {l : Line} (hl : l ∈ k.lines) :
    (s.entry i).body.holdsExclusive l = false ∧ (k.kind = .exclusive → (s.entry i).body.holdsShared l = false) := by
  have hfree := (s.unheldFor_iff k).1 h i
  rw [Bool.eq_false_iff, ne_eq, EntryBody.heldConflict_iff] at hfree
  refine ⟨Bool.eq_false_iff.2 fun hex => ?_, fun hk => Bool.eq_false_iff.2 fun hsh => ?_⟩
  · obtain ⟨cl, hcl, hkind, hmem⟩ := (EntryBody.holdsExclusive_iff _ l).1 hex
    exact hfree ⟨cl, hcl, .inl hkind, l, hmem, hl⟩
  · obtain ⟨cl, hcl, -, hmem⟩ := (EntryBody.holdsShared_iff _ l).1 hsh
    exact hfree ⟨cl, hcl, .inr hk, l, hmem, hl⟩

theorem HolderLaw.grant {s t : State} (hs : HolderLaw s) (h : GrantPart s t) : HolderLaw t := by
  obtain ⟨older, k, cl, configs, pulse, due, gs, hgrant, -, -, -, hentry⟩ := h.entry
  obtain ⟨-, hunheld, -, -⟩ := (s.grantable_iff older _).1 hgrant
  have hnew : (t.entry k).body = .held cl (heldAtGrant cl configs pulse gs due) := by rw [hentry, if_pos rfl]
  have hold {j : Slot} (hj : j ≠ k) : t.entry j = s.entry j := by rw [hentry, if_neg hj]
  intro i j hij l hl
  by_cases hi : i = k
  · obtain rfl := hi
    obtain ⟨cl', hcl', hkind, hmem⟩ := (EntryBody.holdsExclusive_iff _ l).1 hl
    rw [hnew] at hcl'
    obtain rfl : cl = cl' := Option.some.inj hcl'
    obtain ⟨hex, hsh⟩ := State.unheldFor_apart hunheld j (l := l) hmem
    rw [hold (Ne.symm hij)]
    exact ⟨hex, hsh hkind⟩
  · rw [hold hi] at hl
    by_cases hj : j = k
    · obtain rfl := hj
      have hout : l ∉ cl.lines := fun hmem => by simp [(State.unheldFor_apart hunheld i (l := l) hmem).1] at hl
      simp [hnew, EntryBody.holdsExclusive, EntryBody.holdsShared, EntryBody.heldClaim, hout]
    · rw [hold hj]
      exact hs i j hij l hl

theorem HolderLaw.part {row : Instr} {s t : State} (h : EventPart row s t) (hs : HolderLaw s) : HolderLaw t :=
  h.grants_or_edits.elim hs.grant fun hedits => hs.of_holds_le fun i l => (hedits i).holds_le l

/-- Settles O47: an edit of a body makes no holder (`BodyEdit.holds_le`), and a grant none of a line that is held in conflict
(`HolderLaw.grant`). -/
theorem holdersStayApart : Obligations.HoldersStayApart := by
  unfold Obligations.HoldersStayApart
  exact fun s t hs h => step_keeps (P := HolderLaw) (fun _ _ hs => hs) (fun _ _ _ hs => hs) (fun _ _ _ h hs => hs.part h) hs h

/-! ## Waiters -/

/-- What waits in an entry: the claim, the configurations and the arrival number of a WAITING one. -/
def EntryBody.waiter : EntryBody → Option (Claim × LineConfigs × Nat)
  | .waiting cl w => some (cl, w.configs, w.arrival)
  | _ => none

theorem EntryBody.isWaiting_eq (b : EntryBody) : b.isWaiting = b.waiter.isSome := by cases b <;> rfl

theorem EntryBody.arrival_eq (b : EntryBody) : b.arrival = (b.waiter.elim 0 fun x => x.2.2) := by cases b <;> rfl

/-- The wait list and what waits in each entry are as before. -/
structure State.SameQueue (s t : State) : Prop where
  waitList : t.waitList = s.waitList
  waiter : ∀ i : Slot, (t.entry i).body.waiter = (s.entry i).body.waiter

theorem State.SameQueue.refl (s : State) : s.SameQueue s := ⟨rfl, fun _ => rfl⟩

theorem State.SameQueue.trans {s t u : State} (h₁ : s.SameQueue t) (h₂ : t.SameQueue u) : s.SameQueue u :=
  ⟨h₂.waitList.trans h₁.waitList, fun i => (h₂.waiter i).trans (h₁.waiter i)⟩

theorem State.SameQueue.of_entries {s t : State} (hw : t.waitList = s.waitList) (he : t.entries = s.entries) :
    s.SameQueue t := ⟨hw, fun i => by unfold State.entry; rw [he]⟩

theorem State.SameQueue.of_entry {s t : State} (i : Slot) (g : Fin 8) (b : EntryBody) (hw : t.waitList = s.waitList)
    (ht : ∀ j, t.entry j = if j = i then ⟨g, b⟩ else s.entry j) (hb : b.waiter = (s.entry i).body.waiter) :
    s.SameQueue t := by
  refine ⟨hw, fun j => ?_⟩
  rw [ht]
  split
  · next hj => exact hj ▸ hb
  · rfl

theorem WaitListLaw.same {s t : State} (hs : WaitListLaw s) (h : s.SameQueue t) : WaitListLaw t := by
  unfold WaitListLaw at hs ⊢
  simp only [EntryBody.isWaiting_eq, EntryBody.arrival_eq] at hs ⊢
  simpa only [h.waitList, h.waiter] using hs

/-- The entry leaves the list as it stops waiting. -/
theorem WaitListLaw.leave {s t : State} (hs : WaitListLaw s) (i : Slot) (hw : t.waitList = s.waitList.filter fun j => j ≠ i)
    (hi : (t.entry i).body.waiter = none) (hother : ∀ j, j ≠ i → t.entry j = s.entry j) : WaitListLaw t := by
  obtain ⟨hnodup, hmem, harrival⟩ := hs
  refine ⟨hw ▸ hnodup.filter _, fun j => ?_, ?_⟩
  · rw [hw, List.mem_filter, decide_eq_true_eq, hmem]
    by_cases hj : j = i
    · subst hj
      simp [EntryBody.isWaiting_eq, hi]
    · rw [hother j hj]
      simp [hj]
  · have hsame : (t.waitList.map fun j => (t.entry j).body.arrival) = t.waitList.map fun j => (s.entry j).body.arrival := by
      refine List.map_congr_left fun j hj => ?_
      rw [hw, List.mem_filter, decide_eq_true_eq] at hj
      rw [hother j hj.2]
    rw [hsame, hw]
    exact harrival.sublist (List.filter_sublist.map _)

/-- A list without an entry that does not wait is as it was. -/
theorem WaitListLaw.filter_ne {s : State} (hs : WaitListLaw s) {i : Slot} (hi : (s.entry i).body.isWaiting = false) :
    (s.waitList.filter fun j => j ≠ i) = s.waitList := by
  obtain ⟨-, hmem, -⟩ := hs
  rw [List.filter_eq_self]
  intro j hj
  have hne : j ≠ i := by
    rintro rfl
    rw [hmem, hi] at hj
    nomatch hj
  simpa using hne

theorem State.endEffects_waitList (s : State) (i : Slot) (cl : Claim) (h : Held) :
    (s.endEffects i cl h).waitList = s.waitList := by
  unfold State.endEffects State.dropConversion State.returnLines
  split <;> split <;> rfl

/-- What the end of an entry does to the wait list (R46). -/
theorem State.undoEntry_waitList (s : State) (i : Slot) :
    (s.undoEntry i).waitList = if (s.entry i).body.isWaiting then s.waitList.filter fun j => j ≠ i else s.waitList := by
  unfold State.undoEntry
  cases (s.entry i).body with
  | held cl h => exact s.endEffects_waitList i cl h
  | _ => rfl

theorem WaitListLaw.undoEntry_waitList {s : State} (hs : WaitListLaw s) (i : Slot) :
    (s.undoEntry i).waitList = s.waitList.filter fun j => j ≠ i := by
  rw [State.undoEntry_waitList]
  split
  · rfl
  · next hi => rw [hs.filter_ne (Bool.eq_false_iff.2 hi)]

theorem WaitListLaw.retire {s : State} (hs : WaitListLaw s) (i : Slot) : WaitListLaw (s.retire i) := by
  by_cases hfree : (s.entry i).body = .free
  · rwa [State.retire, if_pos hfree]
  · refine hs.leave i ?_ ?_ fun j hj => by rw [State.entry_retire, if_neg fun h => hj h.1]
    · rw [State.retire, if_neg hfree]
      exact hs.undoEntry_waitList i
    · rw [State.entry_retire, if_pos ⟨rfl, hfree⟩]
      rfl

theorem EntryBody.waiter_tombstone (b : EntryBody) (r : EndReason) : (b.tombstone r).waiter = none := by cases b <;> rfl

theorem WaitListLaw.entomb {s : State} (hs : WaitListLaw s) (i : Slot) (r : EndReason) : WaitListLaw (s.entomb i r) :=
  hs.leave i (hs.undoEntry_waitList i) (by rw [State.entry_entomb, if_pos rfl]; exact EntryBody.waiter_tombstone _ r)
    fun j hj => by rw [State.entry_entomb, if_neg hj]

@[simp] theorem State.grantLease_waitList (s : State) (i : Slot) (cl : Claim) (configs : LineConfigs)
    (p : Option PulseSetting) (due : Option Nat) : (s.grantLease i cl configs p due).waitList = s.waitList := by
  cases p <;> rfl

theorem WaitListLaw.grant {s : State} (hs : WaitListLaw s) (i : Slot) (cl : Claim) (configs : LineConfigs)
    (p : Option PulseSetting) (due : Option Nat) : WaitListLaw ((s.leaveWaitList i).grantLease i cl configs p due) :=
  hs.leave i (State.grantLease_waitList ..) (by rw [State.entry_grantLease, if_pos rfl]; rfl)
    fun j hj => by rw [State.entry_grantLease, if_neg hj]; rfl

/-- The arrival number of a new waiter is above those of the list (R64). -/
theorem State.arrival_lt_nextArrival (s : State) {i : Slot} (hi : i ∈ s.waitList) :
    (s.entry i).body.arrival < s.nextArrival := by
  have hle (is : List Slot) : ∀ n : Nat, n ≤ is.foldl (fun n j => max n (s.entry j).body.arrival) n ∧
      ∀ j ∈ is, (s.entry j).body.arrival ≤ is.foldl (fun n j => max n (s.entry j).body.arrival) n := by
    induction is with
    | nil => simp
    | cons k ks ih =>
      intro n
      obtain ⟨hmax, hks⟩ := ih (max n (s.entry k).body.arrival)
      rw [List.foldl_cons]
      refine ⟨by omega, fun j hj => ?_⟩
      obtain rfl | hj := List.mem_cons.1 hj
      · omega
      · exact hks j hj
  exact Nat.lt_succ_of_le ((hle s.waitList 0).2 i hi)

theorem WaitListLaw.queue {s : State} (hs : WaitListLaw s) {i : Slot} (hfree : (s.entry i).body = .free) (c : Client)
    (r : AcquireRequest) : WaitListLaw (s.queueRequest i c r) := by
  obtain ⟨hnodup, hmem, harrival⟩ := hs
  have hw : (s.queueRequest i c r).waitList = s.waitList ++ [i] := rfl
  have hi : i ∉ s.waitList := by
    rw [hmem, hfree]
    nofun
  have hold {j : Slot} (hj : j ≠ i) : (s.queueRequest i c r).entry j = s.entry j := by
    rw [State.entry_queueRequest, if_neg hj]
  have hnew : ((s.queueRequest i c r).entry i).body = .waiting (r.claim c) (r.waiting s.nextArrival) := by
    rw [State.entry_queueRequest, if_pos rfl]
  refine ⟨?_, fun j => ?_, ?_⟩
  · rw [hw, List.nodup_append]
    exact ⟨hnodup, List.nodup_singleton i, fun j hj k hk => by rw [List.mem_singleton.1 hk]; rintro rfl; exact hi hj⟩
  · rw [hw, List.mem_append, List.mem_singleton, hmem]
    by_cases hj : j = i
    · subst hj
      simp [hnew, EntryBody.isWaiting]
    · simp [hold hj, hj]
  · have hsame : (s.waitList.map fun j => ((s.queueRequest i c r).entry j).body.arrival) =
        s.waitList.map fun j => (s.entry j).body.arrival :=
      List.map_congr_left fun j hj => by rw [hold (ne_of_mem_of_not_mem hj hi)]
    rw [hw, List.map_append, hsame, List.pairwise_append]
    refine ⟨harrival, List.pairwise_singleton _ _, fun n hn m hm => ?_⟩
    obtain ⟨j, hj, rfl⟩ := List.mem_map.1 hn
    obtain rfl : m = s.nextArrival := by simpa [hnew, EntryBody.arrival, AcquireRequest.waiting] using hm
    exact s.arrival_lt_nextArrival hj

/-! ## Parts that leave the queue -/

theorem State.deliver_sameQueue (s : State) (i : Slot) (l : Line) (value : Option Nat) (st : ResultStatus) :
    s.SameQueue (s.deliver i l value st) :=
  .of_entry i _ _ rfl (s.entry_deliver i · l value st) (by cases (s.entry i).body <;> rfl)

theorem EntryBody.waiter_withConv (b : EntryBody) (v : ConvState) : (b.withConv v).waiter = b.waiter := by cases b <;> rfl

theorem startNext_sameQueue (q : List Request) (s : State) : s.SameQueue (startNext q s) :=
  startNext_keeps s.SameQueue (fun _ h => h.trans (.of_entries rfl rfl)) (fun t _ h => h.trans (t.deliver_sameQueue ..))
    (fun t r _ h _ => h.trans
      (.of_entry r.slot _ _ rfl (t.entry_setBody r.slot · _) (EntryBody.waiter_withConv _ _))) q s (.refl s)

theorem State.completeRequest_sameQueue (s : State) (f : InFlight) : s.SameQueue (s.completeRequest f) := by
  unfold State.completeRequest
  split
  · exact startNext_sameQueue _ _
  · exact (s.deliver_sameQueue ..).trans (startNext_sameQueue _ _)

theorem State.requestConversion_sameQueue (s : State) (r : Request) : s.SameQueue (s.requestConversion r) := by
  have hq : s.SameQueue
      { s.setBody r.slot ((s.entry r.slot).body.withConv .queued) with convQueue := s.convQueue ++ [r] } :=
    .of_entry r.slot _ _ rfl (s.entry_setBody r.slot · _) (EntryBody.waiter_withConv _ _)
  unfold State.requestConversion
  dsimp only
  split
  · exact hq.trans (startNext_sameQueue _ _)
  · exact hq

theorem EntryBody.waiter_overrunCleared (b : EntryBody) : b.overrunCleared.waiter = b.waiter := by cases b <;> rfl

theorem State.fetchLease_sameQueue (s : State) (c : Client) (i : Slot) : s.SameQueue (s.fetchLease c i) := by
  refine .of_entry i _ _ rfl (s.entry_fetchLease c i ·) ?_
  split
  · exact EntryBody.waiter_overrunCleared _
  · rfl

/-- One HELD entry is written again as HELD. -/
theorem State.SameQueue.of_held {s t : State} {i : Slot} {cl cl' : Claim} {h h' : Held} (hbody : (s.entry i).body = .held cl h)
    (hw : t.waitList = s.waitList)
    (ht : ∀ j, t.entry j = if j = i then ⟨(s.entry i).generation, .held cl' h'⟩ else s.entry j) : s.SameQueue t :=
  .of_entry i _ _ hw ht (by rw [hbody]; rfl)

@[simp] theorem State.postIfDue_waitList (s : State) (i : Slot) (h : Held) : (s.postIfDue i h).waitList = s.waitList := by
  unfold State.postIfDue
  split <;> rfl

theorem State.wrapGroup_sameQueue (s : State) (i : Slot) : s.SameQueue (s.wrapGroup i) := by
  refine ⟨?_, fun j => ?_⟩
  · unfold State.wrapGroup
    split <;> rfl
  · obtain h | ⟨cl, h, g, u, hbody, -, -, rfl, hentry⟩ := s.entry_wrapGroup i j
    · rw [h]
    · rw [hentry, hbody]
      rfl

theorem State.takeSample_sameQueue (s : State) (samples : Vector Level 24) : s.SameQueue (s.takeSample samples) :=
  ⟨rfl, fun i => by rw [State.entry_takeSample]; cases (s.entry i).body <;> rfl⟩

theorem WaitListLaw.part {row : Instr} {s t : State} (h : EventPart row s t) (hs : WaitListLaw s) : WaitListLaw t := by
  cases h with
  | side h => exact hs.same (.of_entries (by rw [h.leases]) (by rw [h.leases]))
  | clear p cause => refine ⟨List.nodup_nil, fun i => ?_, .nil⟩; simp [State.entry, State.cleared, State.reset, EntryBody.isWaiting]
  | lease h =>
    cases h with
    | retire i => exact hs.retire i
    | entomb i r => exact hs.entomb i r
    | grant older i cl w => exact hs.grant i cl w.configs w.pulse w.due
    | acquire c tag body r i hrow hsent hrequest hquota hfree =>
      exact hs.same (.of_entry i _ _ (s.grantLease_waitList ..) (s.entry_grantLease i · ..) (by rw [hfree]; rfl))
    | queue c tag body r i hrow hsent hrequest hquota hfree => exact hs.queue hfree c r
    | renew i cl h rest t hbody => exact hs.same (.of_held hbody rfl (s.entry_setBody i · _))
    | setWatch i cl h rest filter ps hbody => exact hs.same (.of_held hbody rfl (s.entry_setBody i · _))
    | clearWatch i cl h hbody => exact hs.same (.of_held hbody rfl (s.entry_setBody i · _))
    | setPulse i cl h g rest r hbody => exact hs.same (.of_held hbody rfl (s.entry_setBody i · _))
    | reconfigure i cl h rest ps hbody => exact hs.same (.of_held hbody rfl (s.entry_reconfigureLease i · cl h ps))
    | writeLevels i cl h rest ps hbody => exact hs.same (.of_held hbody rfl (s.entry_reconfigureLease i · cl h _))
    | convert r => exact hs.same (s.requestConversion_sameQueue r)
    | collectLease c i => exact hs.same (s.fetchLease_sameQueue c i)
    | storeIdlePlan => exact hs.same (.of_entries rfl rfl)
    | countTerm i cl h hbody =>
      exact hs.same (.of_held hbody (State.postIfDue_waitList ..) (s.entry_countTerm i · cl h))
    | countWait i cl w wl hbody =>
      exact hs.same (.of_entry i _ _ rfl (s.entry_countWait i · cl w wl) (by rw [hbody]; rfl))
    | sample samples => exact hs.same (s.takeSample_sameQueue samples)
    | advance => exact hs.same (.of_entries rfl rfl)
    | wrap i => exact hs.same (s.wrapGroup_sameQueue i)
    | hold => exact hs.same (.of_entries rfl rfl)
    | nextSample => exact hs.same (.of_entries rfl rfl)
    | complete => exact hs.same (s.completeRequest_sameQueue _)

/-- Settles O48: each part of an event leaves the queue (`State.SameQueue`), takes an entry out of it (`WaitListLaw.leave`) or
puts one at its tail (`WaitListLaw.queue`). -/
theorem waitListStaysExact : Obligations.WaitListStaysExact := by
  unfold Obligations.WaitListStaysExact
  exact fun s t hs h =>
    step_keeps (P := WaitListLaw) (fun _ _ hs => hs) (fun _ _ _ hs => hs) (fun _ _ _ h hs => hs.part h) hs h

end Sys2Proof.Machine
end

section
/-!
PROOF. The operands that the argument checks let through (R29, stage 2): lists in ascending line order, and for each request the
ranges and shapes that its checks leave (`acquireRequest_well` and the lemmas after it).
-/

namespace Sys2Proof.Machine

/-! ## Lists keyed by line -/

theorem mem_of_lookup {α β : Type} [DecidableEq α] {ps : List (α × β)} {a : α} {b : β} (h : ps.lookup a = some b) :
    (a, b) ∈ ps := by
  obtain ⟨l₁, l₂, rfl, -⟩ := List.lookup_eq_some_iff.1 h
  simp

theorem lookup_isSome_iff_mem {α β : Type} [DecidableEq α] (ps : List (α × β)) (a : α) :
    (ps.lookup a).isSome = true ↔ a ∈ ps.map Prod.fst := by
  rw [List.lookup_isSome_iff, List.mem_map]
  exact exists_congr fun p => and_congr_right fun _ => by rw [beq_iff_eq, eq_comm]

/-- Where no key is there twice, a lookup finds each pair of the list. -/
theorem lookup_of_mem {α β : Type} [DecidableEq α] {ps : List (α × β)} (hn : (ps.map Prod.fst).Nodup) {p : α × β}
    (h : p ∈ ps) : ps.lookup p.1 = some p.2 := by
  induction ps with
  | nil => nomatch h
  | cons q ps ih =>
    obtain ⟨hq, hn⟩ := List.nodup_cons.1 hn
    rw [List.lookup_cons]
    obtain rfl | h := List.mem_cons.1 h
    · simp
    · have hne : (p.1 == q.1) = false := beq_eq_false_iff_ne.2 fun heq => hq (heq ▸ List.mem_map_of_mem h)
      rw [hne]
      exact ih hn h

theorem map_fst_zip_sublist {α β : Type} : ∀ (as : List α) (bs : List β), ((as.zip bs).map Prod.fst).Sublist as
  | [], _ => List.Sublist.refl _
  | _ :: _, [] => List.nil_sublist _
  | _ :: as, _ :: bs => (map_fst_zip_sublist as bs).cons_cons _

theorem mem_ascendingLines (ls : List Line) (l : Line) : l ∈ ascendingLines ls ↔ l ∈ ls := by
  simp [ascendingLines, allLines]

theorem ascendingLines_pairwise (ls : List Line) : (ascendingLines ls).Pairwise (· < ·) :=
  (List.pairwise_lt_finRange 24).filter _

theorem ascendingLines_perm {ls : List Line} (hn : ls.Nodup) : (ascendingLines ls).Perm ls :=
  (List.perm_ext_iff_of_nodup ((List.nodup_finRange 24).filter _) hn).2 (mem_ascendingLines ls)

/-- Lines in ascending order are already so. -/
theorem ascendingLines_of_pairwise {ls : List Line} (h : ls.Pairwise (· < ·)) : ascendingLines ls = ls :=
  (ascendingLines_perm (h.imp ne_of_lt)).eq_of_pairwise (fun _ _ _ _ h₁ h₂ => absurd (h₁.trans h₂) (lt_irrefl _))
    (ascendingLines_pairwise ls) h

/-- What is listed for the keys of a list, in ascending order, has these keys in ascending order. -/
theorem map_ascending {α β : Type} (ps : List (Line × α)) (f : Line → α → β) (g : β → Line) (hg : ∀ l a, g (f l a) = l) :
    (allLines.filterMap fun l => (ps.lookup l).map (f l)).map g = ascendingLines (ps.map Prod.fst) := by
  rw [List.map_filterMap, ascendingLines, ← List.filterMap_eq_filter]
  refine List.filterMap_congr fun l _ => ?_
  by_cases hl : l ∈ ps.map Prod.fst
  · obtain ⟨a, ha⟩ := Option.isSome_iff_exists.1 ((lookup_isSome_iff_mem ps l).2 hl)
    rw [ha, Option.map_some, Option.map_some, hg, Option.guard, if_pos (List.contains_iff_mem.2 hl)]
  · have hnone : ps.lookup l = none := Option.not_isSome_iff_eq_none.1 (mt (lookup_isSome_iff_mem ps l).1 hl)
    rw [hnone, Option.guard, if_neg (mt List.contains_iff_mem.1 hl)]
    rfl

theorem map_fst_ascending (ps : LineConfigs) : (ascending ps).map Prod.fst = ascendingLines (ps.map Prod.fst) :=
  map_ascending ps Prod.mk Prod.fst fun _ _ => rfl

theorem mem_ascending (ps : LineConfigs) (p : Line × LineConfig) : p ∈ ascending ps ↔ configFor ps p.1 = some p.2 := by
  simp [ascending, allLines, Prod.ext_iff, and_comm]

/-- The pairs of different lines, in ascending order, are these pairs. -/
theorem ascending_perm {ps : LineConfigs} (hn : (ps.map Prod.fst).Nodup) : (ascending ps).Perm ps := by
  have hkeys : ((ascending ps).map Prod.fst).Nodup := by
    rw [map_fst_ascending]
    exact (ascendingLines_pairwise _).imp ne_of_lt
  refine (List.perm_ext_iff_of_nodup hkeys.of_map hn.of_map).2 fun p => ?_
  rw [mem_ascending]
  exact ⟨mem_of_lookup, lookup_of_mem hn⟩

theorem pulseLines_perm {ps qs : LineConfigs} (h : ps.Perm qs) : (pulseLines ps).Perm (pulseLines qs) :=
  (h.filter _).map _

/-- As many lines of a list are PULSE as configurations. -/
theorem length_pulseLines_zip {ls : List Line} {cs : List LineConfig} (h : cs.length ≤ ls.length) :
    (pulseLines (ls.zip cs)).length = (cs.filter fun c => c.mode = .pulse).length := by
  have : (ls.zip cs).map Prod.snd = cs := List.map_snd_zip h
  conv_rhs => rw [← this]
  rw [pulseLines, List.length_map, List.filter_map, List.length_map]
  rfl

/-! ## Shared checks -/

theorem mapAll_length {α β : Type} {f : α → Option β} : ∀ {xs : List α} {ys : List β}, mapAll f xs = some ys →
    ys.length = xs.length
  | [], ys, h => by obtain rfl : [] = ys := by simpa [mapAll] using h
                    rfl
  | x :: xs, ys, h => by
    unfold mapAll at h
    split at h
    · next b bs _ hbs =>
      obtain rfl := Option.some.inj h
      rw [List.length_cons, List.length_cons, mapAll_length hbs]
    · nomatch h

theorem distinctLines_ok {bs : List Byte} {ls : List Line} (h : distinctLines bs = .ok ls) :
    ls.Nodup ∧ ls.length = bs.length := by
  obtain ⟨ls', hls, h⟩ := (check_bind_ok_iff _ _ _).1 h
  obtain ⟨_, hn, h⟩ := (check_bind_ok_iff _ _ _).1 h
  obtain rfl : ls' = ls := by simpa using h
  exact ⟨of_decide_eq_true (ensure_true_of_ok hn), mapAll_length ((need_eq_ok_iff _ _ _).1 hls)⟩

theorem countWithin_ok {n lo hi : Nat} {u : Unit} (h : countWithin n lo hi = .ok u) : lo ≤ n ∧ n ≤ hi :=
  of_decide_eq_true (ensure_true_of_ok h)

theorem modesAllowed_ok {pulseToo : Bool} {ps : LineConfigs} {u : Unit} (h : modesAllowed pulseToo ps = .ok u) :
    ∀ p ∈ ps, modeAllowed pulseToo p.1 p.2.mode = true := by
  simpa using ensure_true_of_ok h

theorem lineValues_ok {α : Type} {lo hi : Nat} {bs : List (Byte × α)} {ps : List (Line × α)}
    (h : lineValues lo hi bs = .ok ps) : (ps.map Prod.fst).Nodup ∧ lo ≤ ps.length ∧ ps.length ≤ hi := by
  obtain ⟨_, hcount, h⟩ := (check_bind_ok_iff _ _ _).1 h
  obtain ⟨ls, hls, h⟩ := (check_bind_ok_iff _ _ _).1 h
  obtain rfl : ls.zip (bs.map Prod.snd) = ps := by simpa using h
  obtain ⟨hn, hlen⟩ := distinctLines_ok hls
  rw [List.length_map] at hlen
  have hzip : (ls.zip (bs.map Prod.snd)).length = bs.length := by simp [hlen]
  rw [hzip, List.map_fst_zip (by simp [hlen])]
  exact ⟨hn, countWithin_ok hcount⟩

theorem optional16_le {present : Bool} {bs rest : List Byte} {x : Option Nat} (h : optional16 present bs = .ok (x, rest)) :
    ∀ n ∈ x, n ≤ 65535 := by
  unfold optional16 at h
  split at h
  · split at h
    · obtain ⟨rfl, -⟩ := Prod.mk.inj (Except.ok.inj h)
      intro n hn
      exact Option.some.inj hn ▸ number16_le _ _
    · nomatch h
  · obtain ⟨rfl, -⟩ := Prod.mk.inj (Except.ok.inj h)
    nofun

theorem splitBytes_ok {n : Nat} {bs xs rest : List Byte} (h : splitBytes n bs = .ok (xs, rest)) : xs.length = n := by
  unfold splitBytes at h
  split at h
  · next hn =>
    obtain ⟨rfl, -⟩ := Prod.mk.inj (Except.ok.inj h)
    exact List.length_take_of_le hn
  · nomatch h

/-! ## ACQUIRE -/

theorem acquireConfigs_ok {kind : Kind} {n : Nat} {bs rest : List Byte} {cs : List LineConfig}
    (h : acquireConfigs kind n bs = .ok (cs, rest)) : cs.length = match kind with | .exclusive => n | .shared => 0 := by
  unfold acquireConfigs at h
  split at h
  · obtain ⟨⟨xs, rest'⟩, hsplit, h⟩ := (check_bind_ok_iff _ _ _).1 h
    obtain ⟨cfgs, hcfgs, h⟩ := (check_bind_ok_iff _ _ _).1 h
    obtain ⟨rfl, -⟩ : cfgs = cs ∧ rest' = rest := by simpa using h
    rw [mapAll_length ((need_eq_ok_iff _ _ _).1 hcfgs), splitBytes_ok hsplit]
  · obtain ⟨rfl, -⟩ : [] = cs ∧ bs = rest := by simpa using h
    rfl

theorem number16_highs_le {bs : List Byte} {ns : List Nat} (h : numbersOf bs = some ns) : ∀ n ∈ ns, n ≤ 65535 := by
  obtain ⟨ps, -, rfl⟩ := Option.map_eq_some_iff.1 h
  intro n hn
  obtain ⟨p, -, rfl⟩ := List.mem_map.1 hn
  exact number16_le _ _

theorem pulseSettingOf_ok {k : Nat} {bs : List Byte} {p : PulseSetting} (h : pulseSettingOf k bs = .ok p) :
    p.well k = true := by
  unfold pulseSettingOf at h
  split at h
  · obtain ⟨highs, -, h⟩ := (check_bind_ok_iff _ _ _).1 h
    obtain ⟨_, hlen, h⟩ := (check_bind_ok_iff _ _ _).1 h
    obtain ⟨_, hdiv, h⟩ := (check_bind_ok_iff _ _ _).1 h
    obtain ⟨_, hperiod, h⟩ := (check_bind_ok_iff _ _ _).1 h
    obtain ⟨_, hhighs, h⟩ := (check_bind_ok_iff _ _ _).1 h
    obtain rfl := Except.ok.inj h
    simp [PulseSetting.well, ensure_true_of_ok hlen, ensure_true_of_ok hdiv, ensure_true_of_ok hperiod,
      ensure_true_of_ok hhighs, number16_le, -List.all_eq_true]
  · nomatch h

/-- The pulse group of an ACQUIRE suits its number of PULSE lines (R31). -/
theorem pulsePartOf_ok {optionBit : Bool} {k : Nat} {rest : List Byte} {p : Option PulseSetting}
    (h : pulsePartOf optionBit k rest = .ok p) :
    k ≤ 4 ∧ match p with | none => k = 0 | some p => 1 ≤ k ∧ p.well k = true := by
  obtain ⟨_, hk, h⟩ := (check_bind_ok_iff _ _ _).1 h
  refine ⟨of_decide_eq_true (ensure_true_of_ok hk), ?_⟩
  split at h
  · obtain ⟨_, hpos, h⟩ := (check_bind_ok_iff _ _ _).1 h
    obtain ⟨q, hq, h⟩ := (check_bind_ok_iff _ _ _).1 h
    obtain rfl : some q = p := by simpa using h
    exact ⟨of_decide_eq_true (ensure_true_of_ok hpos), pulseSettingOf_ok hq⟩
  · obtain ⟨_, hzero, h⟩ := (check_bind_ok_iff _ _ _).1 h
    obtain ⟨_, -, h⟩ := (check_bind_ok_iff _ _ _).1 h
    obtain rfl : none = p := by simpa using h
    exact of_decide_eq_true (ensure_true_of_ok hzero)

/-- The operands that an ACQUIRE's argument checks let through are in their ranges and agree with each other (R31, R32). -/
theorem acquireRequest_well {body : List Byte} {r : AcquireRequest} (h : acquireRequest body = .ok r) : r.well = true := by
  unfold acquireRequest at h
  split at h
  · next kindB waitB options n th tl rest =>
    obtain ⟨kind, -, h⟩ := (check_bind_ok_iff _ _ _).1 h
    obtain ⟨mayWait, -, h⟩ := (check_bind_ok_iff _ _ _).1 h
    obtain ⟨⟨due, rest₁⟩, -, h⟩ := (check_bind_ok_iff _ _ _).1 h
    obtain ⟨⟨limit, rest₂⟩, hlimit, h⟩ := (check_bind_ok_iff _ _ _).1 h
    obtain ⟨⟨lineBytes, rest₃⟩, hsplit, h⟩ := (check_bind_ok_iff _ _ _).1 h
    obtain ⟨⟨cs, rest₄⟩, hcs, h⟩ := (check_bind_ok_iff _ _ _).1 h
    obtain ⟨pulse, hpulse, h⟩ := (check_bind_ok_iff _ _ _).1 h
    obtain ⟨_, hterm, h⟩ := (check_bind_ok_iff _ _ _).1 h
    obtain ⟨_, hdue, h⟩ := (check_bind_ok_iff _ _ _).1 h
    obtain ⟨_, hwait, h⟩ := (check_bind_ok_iff _ _ _).1 h
    obtain ⟨_, hcount, h⟩ := (check_bind_ok_iff _ _ _).1 h
    obtain ⟨ls, hls, h⟩ := (check_bind_ok_iff _ _ _).1 h
    obtain ⟨_, hmodes, h⟩ := (check_bind_ok_iff _ _ _).1 h
    obtain rfl := Except.ok.inj h
    obtain ⟨hn, hlen⟩ := distinctLines_ok hls
    rw [splitBytes_ok hsplit] at hlen
    obtain ⟨hmin, hmax⟩ := countWithin_ok hcount
    have hle : cs.length ≤ ls.length := by
      rw [acquireConfigs_ok hcs]
      cases kind <;> simp [hlen]
    have hkeys : ((ls.zip cs).map Prod.fst).Nodup := (map_fst_zip_sublist ls cs).nodup hn
    have hperm := ascending_perm hkeys
    have hallowed : ∀ p ∈ ascending (ls.zip cs), modeAllowed true p.1 p.2.mode = true :=
      fun p hp => modesAllowed_ok hmodes p (hperm.mem_iff.1 hp)
    have hpulses : (pulseLines (ascending (ls.zip cs))).length = (cs.filter fun c => c.mode = .pulse).length := by
      rw [(pulseLines_perm hperm).length_eq, length_pulseLines_zip hle]
    obtain ⟨hfour, hpulse⟩ := pulsePartOf_ok hpulse
    simp only [AcquireRequest.well, Bool.and_eq_true, decide_eq_true_eq, (ascendingLines_perm hn).length_eq, hlen]
    refine ⟨⟨⟨⟨⟨⟨⟨⟨hmin, hmax⟩, ascendingLines_pairwise ls⟩, ?_⟩, of_decide_eq_true (ensure_true_of_ok hterm)⟩,
      number16_le th tl⟩, ?_⟩, ?_⟩, ?_⟩
    · cases kind with
      | exclusive =>
        have hfst : (ls.zip cs).map Prod.fst = ls := List.map_fst_zip (by rw [acquireConfigs_ok hcs, hlen])
        simpa [map_fst_ascending, hfst] using hallowed
      | shared =>
        obtain rfl : cs = [] := List.eq_nil_of_length_eq_zero (acquireConfigs_ok hcs)
        simp [ascending, configFor]
    · cases due with
      | none => rfl
      | some d => exact Bool.and_eq_true_iff.2 ((of_decide_eq_true (ensure_true_of_ok hdue)).imp decide_eq_true decide_eq_true)
    · cases mayWait with
      | false => rfl
      | true =>
        cases limit with
        | none => rfl
        | some w => simpa [optional16_le hlimit w rfl] using ensure_true_of_ok hwait
    · cases pulse with
      | none => exact List.isEmpty_iff.2 (List.eq_nil_of_length_eq_zero (hpulses.trans hpulse))
      | some p =>
        obtain ⟨hpos, hp⟩ := hpulse
        rw [← hpulses] at hpos hfour hp
        simpa [hpos, hfour, PulseSetting.well, and_assoc] using hp
  · nomatch h

/-! ## Ranges -/

theorem AcquireRequest.counts {r : AcquireRequest} (h : r.well = true) :
    termWithin r.term = true ∧ dueWithin r.term r.due = true ∧ ∀ w ∈ r.waitLimit, 1 ≤ w ∧ w ≤ 65535 := by
  unfold AcquireRequest.well at h
  simp only [Bool.and_eq_true, decide_eq_true_eq] at h
  obtain ⟨⟨⟨⟨⟨-, hmin⟩, hmax⟩, hdue⟩, hwait⟩, -⟩ := h
  refine ⟨by simp [termWithin, hmin, hmax], ?_, fun w hw => ?_⟩
  · cases hd : r.due with
    | none => rfl
    | some d => simpa [dueWithin, hd] using hdue
  · rw [Option.mem_def] at hw
    rw [hw] at hwait
    simp only [Bool.and_eq_true, decide_eq_true_eq] at hwait
    exact ⟨hwait.1.2, hwait.2⟩

theorem AcquireRequest.records {r : AcquireRequest} (h : r.well = true) (c : Client) :
    (r.claim c).linesWell = true ∧ configsWell (r.claim c) r.configs = true ∧ pulseWell r.configs r.pulse = true := by
  unfold AcquireRequest.well at h
  simp only [Bool.and_eq_true, decide_eq_true_eq] at h
  obtain ⟨⟨⟨⟨⟨⟨⟨⟨hmin, hmax⟩, hsorted⟩, hconfigs⟩, -⟩, -⟩, -⟩, -⟩, hpulse⟩ := h
  refine ⟨by simp [Claim.linesWell, AcquireRequest.claim, hmin, hmax, hsorted], hconfigs, ?_⟩
  unfold pulseWell
  cases hp : r.pulse with
  | none =>
    rw [hp] at hpulse
    simp [List.isEmpty_iff.1 hpulse]
  | some p =>
    rw [hp] at hpulse
    simp only [Bool.and_eq_true, decide_eq_true_eq] at hpulse
    obtain ⟨⟨⟨⟨⟨⟨hpos, hfour⟩, hdiv⟩, hlow⟩, hhigh⟩, hlen⟩, hhighs⟩ := hpulse
    have hne : pulseLines r.configs ≠ [] := List.ne_nil_of_length_pos hpos
    simp [PulseSetting.well, hfour, hne, hdiv, hlow, hhigh, hlen, -List.all_eq_true, hhighs]

theorem renewTerm_counts {rest : List Byte} {term : Nat} {due : Option Nat} (h : renewTerm rest = .ok (some (term, due))) :
    termWithin term = true ∧ dueWithin term due = true := by
  unfold renewTerm at h
  split at h
  · nomatch h
  · obtain ⟨_, hterm, h⟩ := (check_bind_ok_iff _ _ _).1 h
    obtain ⟨rfl, rfl⟩ := Prod.mk.inj (Option.some.inj (Except.ok.inj h))
    exact ⟨by simp [termWithin, number16_le, of_decide_eq_true (ensure_true_of_ok hterm)], rfl⟩
  · obtain ⟨_, hterm, h⟩ := (check_bind_ok_iff _ _ _).1 h
    obtain ⟨_, hdue, h⟩ := (check_bind_ok_iff _ _ _).1 h
    obtain ⟨rfl, rfl⟩ := Prod.mk.inj (Option.some.inj (Except.ok.inj h))
    exact ⟨by simp [termWithin, number16_le, of_decide_eq_true (ensure_true_of_ok hterm)],
      by simpa [dueWithin] using ensure_true_of_ok hdue⟩
  · nomatch h

/-- The operands of a SET WATCH: a filter length from 1 to 15, and different lines (R103). -/
theorem watchRequest_ok {rest : List Byte} {filter : Nat} {ps : List (Line × Sense)}
    (h : watchRequest rest = .ok (filter, ps)) :
    (1 ≤ filter ∧ filter ≤ 15) ∧ (ps.map Prod.fst).Nodup ∧ 1 ≤ ps.length ∧ ps.length ≤ 8 := by
  unfold watchRequest at h
  split at h
  · obtain ⟨_, -, h⟩ := (check_bind_ok_iff _ _ _).1 h
    obtain ⟨_, hfilter, h⟩ := (check_bind_ok_iff _ _ _).1 h
    obtain ⟨ls, hls, h⟩ := (check_bind_ok_iff _ _ _).1 h
    obtain ⟨rfl, rfl⟩ := Prod.mk.inj (Except.ok.inj h)
    exact ⟨of_decide_eq_true (ensure_true_of_ok hfilter), lineValues_ok hls⟩
  · nomatch h

/-- The operands of a RECONFIGURE: different lines, with modes that they allow (R40). -/
theorem reconfigurePairs_ok {rest : List Byte} {ps : LineConfigs} (h : reconfigurePairs rest = .ok ps) :
    (ps.map Prod.fst).Nodup ∧ ∀ p ∈ ps, modeAllowed false p.1 p.2.mode = true := by
  obtain ⟨_, -, h⟩ := (check_bind_ok_iff _ _ _).1 h
  obtain ⟨ls, hls, h⟩ := (check_bind_ok_iff _ _ _).1 h
  obtain ⟨_, hmodes, h⟩ := (check_bind_ok_iff _ _ _).1 h
  obtain rfl := Except.ok.inj h
  exact ⟨(lineValues_ok hls).1, modesAllowed_ok hmodes⟩

/-- The fields of a SET PULSE: one of the eight dividers, and a 2-byte period of at least 2 (R122). -/
theorem pulseRequest_ok {rest : List Byte} {r : PulseRequest} (h : pulseRequest rest = .ok r) :
    (∀ d ∈ r.divider, isDivider d = true) ∧ ∀ p ∈ r.period, 2 ≤ p ∧ p ≤ 65535 := by
  unfold pulseRequest at h
  split at h
  · obtain ⟨_, -, h⟩ := (check_bind_ok_iff _ _ _).1 h
    obtain ⟨⟨divider, rest₁⟩, hdiv, h⟩ := (check_bind_ok_iff _ _ _).1 h
    obtain ⟨⟨period, rest₂⟩, hper, h⟩ := (check_bind_ok_iff _ _ _).1 h
    obtain ⟨_, hperiod, h⟩ := (check_bind_ok_iff _ _ _).1 h
    have hdivider : ∀ d ∈ divider, isDivider d = true := by
      unfold pulseDivider at hdiv
      split at hdiv
      · split at hdiv
        · split at hdiv
          · next hd =>
            obtain ⟨rfl, -⟩ := Prod.mk.inj (Except.ok.inj hdiv)
            exact fun _ hmem => Option.some.inj hmem ▸ hd
          · nomatch hdiv
        · nomatch hdiv
      · obtain ⟨rfl, -⟩ := Prod.mk.inj (Except.ok.inj hdiv)
        nofun
    have hrange : ∀ p ∈ period, 2 ≤ p ∧ p ≤ 65535 := fun p hp => by
      refine ⟨?_, optional16_le hper p hp⟩
      rw [Option.mem_def.1 hp] at hperiod
      exact of_decide_eq_true (ensure_true_of_ok hperiod)
    have hfields : r.divider = divider ∧ r.period = period := by
      split at h
      · obtain ⟨_, -, h⟩ := (check_bind_ok_iff _ _ _).1 h
        obtain rfl := Except.ok.inj h
        exact ⟨rfl, rfl⟩
      · obtain ⟨_, -, h⟩ := (check_bind_ok_iff _ _ _).1 h
        obtain rfl := Except.ok.inj h
        exact ⟨rfl, rfl⟩
    rw [hfields.1, hfields.2]
    exact ⟨hdivider, hrange⟩
  · nomatch h

end Sys2Proof.Machine
end

section
/-!
PROOF. The counts of entries and sessions stay in their ranges, and no position passes the end of its interval (O49).
-/

namespace Sys2Proof.Machine

/-! ## Counts of entries -/

theorem EntryBody.countsWithin_term {b : EntryBody} {cl : Claim} (h : b.countsWithin = true) (hcl : b.claim = some cl) :
    termWithin cl.term = true := by
  cases b with
  | free => nomatch hcl
  | ended _ _ =>
    obtain rfl := Option.some.inj hcl
    exact h
  | waiting _ _ =>
    obtain rfl := Option.some.inj hcl
    simp only [EntryBody.countsWithin, Bool.and_eq_true] at h
    exact h.1.1
  | held _ _ =>
    obtain rfl := Option.some.inj hcl
    simp only [EntryBody.countsWithin, Bool.and_eq_true] at h
    exact h.1.1.1

/-- A lease whose remaining term is its whole term (R68, R84). -/
theorem countsWithin_full {cl : Claim} {h : Held} (hterm : termWithin cl.term = true) (hdue : dueWithin cl.term h.due = true)
    (hfull : h.remaining = cl.term) : (EntryBody.held cl h).countsWithin = true := by
  have hpos : 1 ≤ cl.term := by
    simp only [termWithin, Bool.and_eq_true, decide_eq_true_eq] at hterm
    exact hterm.1
  simp [EntryBody.countsWithin, hterm, hdue, hfull, hpos]

theorem BodyEdit.countsWithin {b b' : EntryBody} (h : BodyEdit b b') (hb : b.countsWithin = true) : b'.countsWithin = true := by
  cases h with
  | freed => rfl
  | entombed r cl hlive => cases b with
    | free => rfl
    | ended => exact hb
    | waiting => exact EntryBody.countsWithin_term hb rfl
    | held => exact EntryBody.countsWithin_term hb rfl
  | queued c body r n hrequest =>
    obtain ⟨hterm, hdue, hwait⟩ := AcquireRequest.counts (acquireRequest_well hrequest)
    cases hw : r.waitLimit with
    | none => simp [EntryBody.countsWithin, AcquireRequest.claim, AcquireRequest.waiting, hterm, hdue, hw]
    | some w => simp [EntryBody.countsWithin, AcquireRequest.claim, AcquireRequest.waiting, hterm, hdue, hw, hwait w hw]
  | renewed cl h rest t hterm =>
    simp only [EntryBody.countsWithin, Bool.and_eq_true] at hb
    obtain ⟨⟨⟨holdterm, holddue⟩, -⟩, -⟩ := hb
    cases t with
    | none => exact countsWithin_full holdterm holddue rfl
    | some x =>
      obtain ⟨hnew, hnewdue⟩ := renewTerm_counts hterm
      exact countsWithin_full hnew hnewdue rfl
  | converting v => cases b <;> exact hb
  | converted r => cases b <;> exact hb
  | collected => cases b <;> exact hb
  | sampled samples => cases b <;> exact hb
  | termCounted cl h hleft =>
    simp only [EntryBody.countsWithin, Bool.and_eq_true, decide_eq_true_eq] at hb ⊢
    obtain ⟨⟨⟨hterm, hdue⟩, -⟩, hmax⟩ := hb
    exact ⟨⟨⟨hterm, hdue⟩, by omega⟩, by omega⟩
  | waitCounted cl w wl hwait hleft =>
    simp only [EntryBody.countsWithin, Bool.and_eq_true, decide_eq_true_eq, hwait] at hb ⊢
    obtain ⟨hterm, ⟨-, hmax⟩, hlimit⟩ := hb
    exact ⟨hterm, ⟨by omega, by omega⟩, hlimit⟩
  | _ => exact hb

theorem BodyChange.countsWithin {b b' : EntryBody} (h : BodyChange b b') (hb : b.countsWithin = true) :
    b'.countsWithin = true := by
  cases h with
  | edit h => exact h.countsWithin hb
  | granted hrequest =>
    cases hrequest with
    | waiting cl w =>
      simp only [EntryBody.countsWithin, Bool.and_eq_true] at hb
      exact countsWithin_full hb.1.1 hb.1.2 rfl
    | acquire c body r hrequest =>
      obtain ⟨hterm, hdue, -⟩ := AcquireRequest.counts (acquireRequest_well hrequest)
      exact countsWithin_full hterm hdue rfl

/-! ## Client records -/

/-- A client's record before and after a part of an event that changes it. -/
inductive ClientChange : ClientRecord → ClientRecord → Prop
  | kept (r : ClientRecord) (h : r.attached = true) : ClientChange r r.kept
  | ended (r : ClientRecord) (reason : LastEnd) : ClientChange r (r.ended reason)
  | opened (r : ClientRecord) (timeout : Nat) (attention : Bool) (h : timeout ≤ 65535) :
      ClientChange r (r.opened timeout attention)
  | attention (r : ClientRecord) (a : Bool) : ClientChange r { r with attention := a }
  | counted (r : ClientRecord) (n : Nat) (hcount : r.count = some n) (hn : 2 ≤ n) :
      ClientChange r { r with count := some (n - 1) }
  | reset (r : ClientRecord) : ClientChange r ClientRecord.reset

section
variable {row : Instr} {s t : State}

/-- One client's record is replaced. -/
theorem ClientChange.of_set {c d : Client} {r : ClientRecord} (h : ClientChange (s.client c) r)
    (ht : t.client d = if d = c then r else s.client d) : t.client d = s.client d ∨ ClientChange (s.client d) (t.client d) := by
  rw [ht]
  split
  · next hd => exact .inr (hd ▸ h)
  · exact .inl rfl

theorem EventPart.client (h : EventPart row s t) (d : Client) :
    t.client d = s.client d ∨ ClientChange (s.client d) (t.client d) := by
  cases h with
  | lease h => exact .inl (by rw [h.frame]; rfl)
  | clear p cause =>
    have : (s.cleared p cause).client d = ClientRecord.reset := by simp [State.client, State.cleared, State.reset]
    exact .inr (this ▸ .reset _)
  | side h =>
    cases h with
    | ports _ t hframe hclient =>
      obtain h | ⟨hattached, h⟩ := hclient d
      · exact .inl h
      · exact .inr (h ▸ .kept _ hattached)
    | close c reason => exact ClientChange.of_set (.ended _ reason) (State.client_setClient ..)
    | dismiss c reason => exact ClientChange.of_set (.ended _ reason) (State.client_setClient ..)
    | openSession c timeout a htimeout => exact ClientChange.of_set (.opened _ timeout a htimeout) (State.client_setClient ..)
    | setAttention c a => exact ClientChange.of_set (.attention _ a) (State.client_setClient ..)
    | countSession c n hcount hn => exact ClientChange.of_set (.counted _ n hcount hn) (State.client_setClient ..)
    | _ => exact .inl rfl

end

theorem ClientChange.countWithin {r r' : ClientRecord} (h : ClientChange r r') (hr : r.countWithin = true) :
    r'.countWithin = true := by
  unfold ClientRecord.countWithin at hr
  simp only [Bool.and_eq_true, decide_eq_true_eq] at hr
  obtain ⟨hmax, hcount⟩ := hr
  cases h with
  | kept hattached =>
    by_cases hz : r.timeout = 0
    · simp [ClientRecord.countWithin, ClientRecord.kept, hz]
    · simp [ClientRecord.countWithin, ClientRecord.kept, hz, hattached, hmax]
      omega
  | ended reason => simp [ClientRecord.countWithin, ClientRecord.ended, hmax]
  | opened timeout a htimeout =>
    by_cases hz : timeout = 0
    · simp [ClientRecord.countWithin, ClientRecord.opened, hz]
    · simp [ClientRecord.countWithin, ClientRecord.opened, hz, htimeout]
      omega
  | attention a => simpa [ClientRecord.countWithin, hmax] using hcount
  | counted n hn hleft =>
    rw [hn] at hcount
    simp only [Bool.and_eq_true, decide_eq_true_eq] at hcount
    obtain ⟨⟨⟨hattached, htimeout⟩, -⟩, hle⟩ := hcount
    simp [ClientRecord.countWithin, hmax, hattached, htimeout]
    omega
  | reset => decide

theorem CountdownLaw.part {row : Instr} {s t : State} (h : EventPart row s t) (hs : CountdownLaw s) : CountdownLaw t :=
  ⟨h.keeps_bodies (Q := fun b => b.countsWithin = true) (fun _ _ h => h.countsWithin) hs.1, fun c =>
    (h.client c).elim (fun hc => hc ▸ hs.2 c) fun hc => hc.countWithin (hs.2 c)⟩

/-! ## The request in flight -/

/-- The request in flight is as before, but for its two marks. -/
def State.Marks (s t : State) : Prop :=
  ∃ d e : InFlight → Bool, t.inFlight = s.inFlight.map fun f => { f with disturbed := d f, discard := e f }

theorem State.Marks.of_eq {s t : State} (h : t.inFlight = s.inFlight) : s.Marks t :=
  ⟨InFlight.disturbed, InFlight.discard, h.trans (congrFun Option.map_id _).symm⟩

theorem State.Marks.trans {s t u : State} (h₁ : s.Marks t) (h₂ : t.Marks u) : s.Marks u := by
  obtain ⟨d, e, ht⟩ := h₁
  obtain ⟨d', e', hu⟩ := h₂
  refine ⟨fun f => d' { f with disturbed := d f, discard := e f }, fun f => e' { f with disturbed := d f, discard := e f }, ?_⟩
  rw [hu, ht, Option.map_map]
  rfl

theorem State.configureLines_marks (s : State) (ps : LineConfigs) : s.Marks (s.configureLines ps) :=
  ⟨_, InFlight.discard, s.configureLines_request ps⟩

theorem State.dropConversion_marks (s : State) (i : Slot) (v : ConvState) : s.Marks (s.dropConversion i v) := by
  cases v with
  | none => exact .of_eq rfl
  | queued => exact .of_eq rfl
  | inFlight =>
    refine ⟨InFlight.disturbed, fun f => if f.request.slot = i then true else f.discard, ?_⟩
    refine congrArg (fun g => Option.map g s.inFlight) (funext fun f => ?_)
    by_cases hf : f.request.slot = i <;> simp [hf]

theorem State.undoEntry_marks (s : State) (i : Slot) : s.Marks (s.undoEntry i) := by
  unfold State.undoEntry
  split
  · exact .of_eq rfl
  · exact .of_eq rfl
  · next cl h _ =>
    have hlines : s.Marks (s.returnLines cl) := by
      unfold State.returnLines
      split
      · exact s.configureLines_marks _
      · exact .of_eq rfl
    exact hlines.trans (State.dropConversion_marks _ i h.conv)
  · exact .of_eq rfl

theorem State.grantLease_marks (s : State) (i : Slot) (cl : Claim) (configs : LineConfigs) (p : Option PulseSetting)
    (due : Option Nat) : s.Marks (s.grantLease i cl configs p due) := by
  cases p <;> exact State.configureLines_marks _ configs

/-- A request has just begun a phase, or stands where one stood before. -/
def State.KeepsPhase (s t : State) : Prop :=
  ∀ f, t.inFlight = some f → f.elapsed = 0 ∨
    ∃ f', s.inFlight = some f' ∧ f.elapsed = f'.elapsed ∧ f.phasePeriods = f'.phasePeriods

theorem State.Marks.keepsPhase {s t : State} (h : s.Marks t) : s.KeepsPhase t := by
  obtain ⟨d, e, ht⟩ := h
  intro f hf
  rw [ht] at hf
  obtain ⟨f', hf', rfl⟩ := Option.map_eq_some_iff.1 hf
  exact .inr ⟨f', hf', rfl, rfl⟩

/-- After the queue's requests have started or completed, the request in flight is a new one (R137). -/
theorem startNext_inFlight (q : List Request) : ∀ s : State,
    (startNext q s).inFlight = none ∨ ∃ r ∈ q, (startNext q s).inFlight = some (s.started r) := by
  induction q with
  | nil => exact fun _ => .inl rfl
  | cons r rest ih =>
    intro s
    unfold startNext
    split
    · exact .inr ⟨r, .head _, rfl⟩
    · exact (ih _).imp_right fun ⟨r', hr', h⟩ => ⟨r', .tail _ hr', h⟩

theorem startNext_keepsPhase (s : State) (q : List Request) (t : State) : s.KeepsPhase (startNext q t) := by
  intro f hf
  obtain h | ⟨r, -, h⟩ := startNext_inFlight q t
  · nomatch h.symm.trans hf
  · obtain rfl := Option.some.inj (h.symm.trans hf)
    exact .inl rfl

theorem LeasePart.keepsPhase {row : Instr} {s t : State} (h : LeasePart row s t) : s.KeepsPhase t := by
  cases h with
  | retire i =>
    unfold State.retire
    split
    · exact (State.Marks.of_eq rfl).keepsPhase
    · exact (s.undoEntry_marks i).keepsPhase
  | entomb i => exact (s.undoEntry_marks i).keepsPhase
  | grant older i cl w => exact ((s.leaveWaitList i).grantLease_marks i cl _ _ _).keepsPhase
  | acquire => exact (s.grantLease_marks ..).keepsPhase
  | reconfigure i cl h rest ps => exact (State.configureLines_marks _ ps).keepsPhase
  | writeLevels => exact (State.configureLines_marks _ _).keepsPhase
  | storeIdlePlan => exact (State.configureLines_marks _ _).keepsPhase
  | convert r =>
    unfold State.requestConversion
    dsimp only
    split
    · exact startNext_keepsPhase s _ _
    · exact (State.Marks.of_eq rfl).keepsPhase
  | countTerm => exact (State.Marks.of_eq (by unfold State.countTerm State.postIfDue; dsimp only; split <;> rfl)).keepsPhase
  | wrap i => exact (State.Marks.of_eq (by unfold State.wrapGroup; split <;> rfl)).keepsPhase
  | hold f v hf =>
    intro f' hf'
    obtain rfl := Option.some.inj hf'
    exact .inl rfl
  | nextSample f held vdd hf =>
    intro f' hf'
    obtain rfl := Option.some.inj hf'
    exact .inl rfl
  | complete f held vdd hf =>
    unfold State.completeRequest
    split <;> exact startNext_keepsPhase s _ _
  | _ => exact (State.Marks.of_eq rfl).keepsPhase

/-! ## The clocks -/

/-- A tick that is on its way after one has been taken was so before. -/
theorem ticks_of_taken {n : Nat} (ticks : Vector Bool n) (i : Fin n) {j : Fin n} (h : (ticks.set i false)[j] = true) :
    ticks[j] = true := by
  rw [Fin.getElem_fin, Vector.getElem_set] at h
  split at h
  · nomatch h
  · exact h

section
variable {row : Instr} {s t : State}

theorem LeasePart.samplePosition (h : LeasePart row s t) : t.samplePosition = s.samplePosition ∨ t.samplePosition = 0 := by
  obtain h | ⟨c, ps, -, -, rfl⟩ | ⟨c, i, -, rfl⟩ | ⟨samples, rfl⟩ := h.leasesOnly
  · exact .inl (by rw [h])
  · exact .inl rfl
  · exact .inl rfl
  · exact .inr rfl

/-- Positions that are as before or at the start of an interval. -/
theorem ClockLaw.of_positions (hs : ClockLaw s) (htick : t.tickPosition = 0 ∨ (t.tickPosition = s.tickPosition ∧ t.tickRate = s.tickRate))
    (hsample : t.samplePosition = s.samplePosition ∨ t.samplePosition = 0)
    (hphase : ∀ n, t.phase = .initializing n → n = 0 ∨ s.phase = .initializing n) (hflight : s.KeepsPhase t)
    (hticks : t.tickPosition = 0 ∨ ((∀ i : Slot, t.entryTicks[i] = true → s.entryTicks[i] = true) ∧
      ∀ c : Client, t.clientTicks[c] = true → s.clientTicks[c] = true)) : ClockLaw t := by
  obtain ⟨hposition, hsampled, hinit, hconv, hway⟩ := hs
  refine ⟨?_, ?_, fun n hn => ?_, fun f hf => ?_, fun hne => ?_⟩
  · obtain h | ⟨hp, hr⟩ := htick
    · rw [h]; exact Nat.zero_le _
    · rwa [hp, hr]
  · obtain h | h := hsample
    · rwa [h]
    · rw [h]; exact Nat.zero_le _
  · obtain rfl | h := hphase n hn
    · exact Nat.zero_le _
    · exact hinit n h
  · obtain h | ⟨f', hf', helapsed, hperiods⟩ := hflight f hf
    · rw [h]; exact Nat.zero_le _
    · rw [helapsed, hperiods]
      exact hconv f' hf'
  · obtain ⟨he, hc⟩ := hticks.resolve_left hne
    have hold : s.tickPosition ≠ 0 := by rw [← (htick.resolve_left hne).1]; exact hne
    obtain ⟨hentries, hclients⟩ := hway hold
    exact ⟨fun i => Bool.eq_false_iff.2 fun h => Bool.eq_false_iff.1 (hentries i) (he i h),
      fun c => Bool.eq_false_iff.2 fun h => Bool.eq_false_iff.1 (hclients c) (hc c h)⟩

theorem ClockLaw.side (h : SidePart row s t) (hs : ClockLaw s) : ClockLaw t := by
  have same (hframe : t = { t with
      tickPosition := s.tickPosition, tickRate := s.tickRate, samplePosition := s.samplePosition, phase := s.phase
      inFlight := s.inFlight, entryTicks := s.entryTicks, clientTicks := s.clientTicks }) : ClockLaw t := by
    rw [hframe]
    exact hs
  have hflight : s.KeepsPhase t := (State.Marks.of_eq (by rw [h.leases])).keepsPhase
  have hsample : t.samplePosition = s.samplePosition := by rw [h.leases]
  cases h with
  | ports _ _ hframe => exact same (by rw [hframe])
  | setTick => exact hs.of_positions (.inl rfl) (.inl rfl) (fun _ h => .inr h) hflight (.inl rfl)
  | emitTick => exact hs.of_positions (.inl rfl) (.inl rfl) (fun _ h => .inr h) hflight (.inl rfl)
  | takeEntryTick i =>
    exact hs.of_positions (.inr ⟨rfl, rfl⟩) (.inl rfl) (fun _ h => .inr h) hflight
      (.inr ⟨fun _ h => ticks_of_taken s.entryTicks i h, fun _ h => h⟩)
  | takeClientTick c =>
    exact hs.of_positions (.inr ⟨rfl, rfl⟩) (.inl rfl) (fun _ h => .inr h) hflight
      (.inr ⟨fun _ h => h, fun _ h => ticks_of_taken s.clientTicks c h⟩)
  | release a b v =>
    exact hs.of_positions (.inr ⟨rfl, rfl⟩) (.inl rfl) (fun n hn => .inl (Phase.initializing.inj hn).symm) hflight
      (.inr ⟨fun _ h => h, fun _ h => h⟩)
  | endInitialization n =>
    exact hs.of_positions (.inr ⟨rfl, rfl⟩) (.inl rfl) nofun hflight (.inr ⟨fun _ h => h, fun _ h => h⟩)
  | _ => exact same rfl

theorem ClockLaw.part (h : EventPart row s t) (hs : ClockLaw s) : ClockLaw t := by
  cases h with
  | side h => exact hs.side h
  | lease h =>
    refine hs.of_positions (.inr ?_) h.samplePosition ?_ h.keepsPhase (.inr ?_) <;> rw [h.frame]
    · exact ⟨rfl, rfl⟩
    · exact fun _ h => .inr h
    · exact ⟨fun _ h => h, fun _ h => h⟩
  | clear p cause hrow hp =>
    refine hs.of_positions (.inl rfl) (.inr rfl) (fun n hn => ?_) nofun (.inl rfl)
    obtain rfl | rfl := hp <;> nomatch hn

end

/-- A period in which nothing is due takes no position past the end of its interval (log 2). -/
theorem clockLaw_afterPeriod {s : State} (hdue : s.someDue = false) : ClockLaw s.afterPeriod := by
  simp only [State.someDue, Bool.or_eq_false_iff] at hdue
  obtain ⟨⟨⟨⟨⟨⟨htick, hsample⟩, hconverter⟩, hinit⟩, -⟩, -⟩, -⟩ := hdue
  refine ⟨?_, ?_, fun n hn => ?_, fun f hf => ?_, fun _ => ⟨fun i => ?_, fun c => ?_⟩⟩
  · simp only [State.tickDue, decide_eq_false_iff_not] at htick
    change s.tickPosition + 1 ≤ tickPeriods s.tickRate
    omega
  · simp only [State.sampleDue, decide_eq_false_iff_not] at hsample
    change s.samplePosition + 1 ≤ Config.samplePeriods
    omega
  · change s.phase.afterPeriod = _ at hn
    cases hp : s.phase with
    | initializing m =>
      rw [hp] at hn hinit
      obtain rfl := Phase.initializing.inj hn
      simp only [Phase.due, decide_eq_false_iff_not] at hinit
      omega
    | _ => rw [hp] at hn; nomatch hn
  · change s.inFlight.map _ = _ at hf
    obtain ⟨f', hf', rfl⟩ := Option.map_eq_some_iff.1 hf
    rw [State.converterDue, hf'] at hconverter
    simp only [decide_eq_false_iff_not] at hconverter
    change f'.elapsed + 1 ≤ f'.phasePeriods
    omega
  · simp [State.afterPeriod]
  · simp [State.afterPeriod]

/-- Settles O49: a change of a body or of a client's record keeps its counts in range (`CountdownLaw.part`), and each part of an
event leaves a position or returns it to the start of its interval (`ClockLaw.part`). -/
theorem countsStayInRange : Obligations.CountsStayInRange := by
  unfold Obligations.CountsStayInRange
  refine ⟨fun s t hs h => ?_, fun s t hs h => ?_⟩
  · exact step_keeps (P := CountdownLaw) (fun _ _ hs => hs) (fun _ _ _ hs => hs) (fun _ _ _ h hs => hs.part h) hs h
  · exact step_keeps (P := ClockLaw) (fun _ _ hs => hs) (fun _ _ hdue _ => clockLaw_afterPeriod hdue) (fun _ _ _ h hs => hs.part h)
      hs h

end Sys2Proof.Machine
end

section
/-!
PROOF. Every lease record keeps its shape (O51). A RECONFIGURE or WRITE LEVELS leaves the PULSE lines of a lease as they are
(`pulseLines_replaced`), so that its pulse group still suits them.
-/

namespace Sys2Proof.Machine

/-! ## New configurations for some lines of a lease -/

theorem map_fst_replaced (configs ps : LineConfigs) : (replaced configs ps).map Prod.fst = configs.map Prod.fst := by
  rw [replaced, List.map_map]
  rfl

theorem modeAllowed_of_false {l : Line} {m : Mode} (h : modeAllowed false l m = true) : modeAllowed true l m = true := by
  cases m with
  | pulse => nomatch h
  | _ => exact h

/-- What holds of each old and each new configuration holds after some are replaced. -/
theorem forall_replaced {Q : Line → LineConfig → Prop} {configs ps : LineConfigs} (hold : ∀ p ∈ configs, Q p.1 p.2)
    (hnew : ∀ l k, configFor ps l = some k → Q l k) : ∀ p ∈ replaced configs ps, Q p.1 p.2 := by
  intro p hp
  obtain ⟨q, hq, rfl⟩ := List.mem_map.1 hp
  dsimp only
  cases h : configFor ps q.1 with
  | none => exact hold q hq
  | some k => exact hnew q.1 k h

/-- Where a new configuration is PULSE just if the old one is, the PULSE lines stay. -/
theorem pulseLines_replaced {configs ps : LineConfigs}
    (h : ∀ p ∈ configs, ∀ k, configFor ps p.1 = some k → (k.mode = .pulse ↔ p.2.mode = .pulse)) :
    pulseLines (replaced configs ps) = pulseLines configs := by
  unfold pulseLines replaced
  rw [List.filter_map, List.map_map]
  refine congrArg _ (List.filter_congr fun p hp => ?_)
  rw [Function.comp, decide_eq_decide]
  dsimp only
  cases hk : configFor ps p.1 with
  | none => exact Iff.rfl
  | some k => exact h p hp k hk

/-- The new configuration of a line that WRITE LEVELS names is the old one with another level (R98). -/
theorem configFor_withLevels {configs : LineConfigs} {ps : List (Line × Level)} {l : Line} {k : LineConfig}
    (h : configFor (withLevels configs ps) l = some k) : ∃ c v, configFor configs l = some c ∧ (l, v) ∈ ps ∧ k = { c with level := v } := by
  obtain ⟨p, hp, hpk⟩ := List.mem_filterMap.1 (mem_of_lookup h)
  obtain ⟨c, hc, heq⟩ := Option.map_eq_some_iff.1 hpk
  obtain ⟨rfl, rfl⟩ := Prod.mk.inj heq
  exact ⟨c, p.2, hc, hp, rfl⟩

theorem isPulseIn_of_some {configs : LineConfigs} {l : Line} {c : LineConfig} (h : configFor configs l = some c) :
    isPulseIn configs l = decide (c.mode = .pulse) := by
  unfold isPulseIn
  rw [h]

/-! ## The record of a HELD lease -/

theorem recordWell_held_iff (cl : Claim) (h : Held) :
    (EntryBody.held cl h).recordWell = true ↔
      cl.linesWell = true ∧ configsWell cl h.configs = true ∧ pulseWell h.configs (h.pulse.map PulseGroup.setting) = true ∧
        (∀ g, h.pulse = some g → g.well (pulseLines h.configs).length = true) ∧
        ∀ w, h.watch = some w → w.well cl.lines = true := by
  obtain ⟨configs, pulse, remaining, due, watch, conv, result⟩ := h
  cases pulse <;> cases watch <;> simp [EntryBody.recordWell, and_assoc]

theorem EntryBody.recordWell_lines {b : EntryBody} {cl : Claim} (h : b.recordWell = true) (hcl : b.claim = some cl) :
    cl.linesWell = true := by
  cases b with
  | free => nomatch hcl
  | ended =>
    obtain rfl := Option.some.inj hcl
    exact h
  | waiting cl w =>
    obtain rfl := Option.some.inj hcl
    unfold EntryBody.recordWell at h
    simp only [Bool.and_eq_true] at h
    exact h.1.1
  | held cl hd =>
    obtain rfl := Option.some.inj hcl
    obtain ⟨hlines, -⟩ := (recordWell_held_iff cl hd).1 h
    exact hlines

theorem Claim.lines_pairwise {cl : Claim} (h : cl.linesWell = true) : cl.lines.Pairwise (· < ·) := by
  simp only [Claim.linesWell, Bool.and_eq_true, decide_eq_true_eq] at h
  exact h.2

/-- The configurations of an EXCLUSIVE claim (R2, R21). -/
theorem configsWell_exclusive_iff {cl : Claim} (hkind : cl.kind = .exclusive) (configs : LineConfigs) :
    configsWell cl configs = true ↔
      configs.map Prod.fst = cl.lines ∧ ∀ p ∈ configs, modeAllowed true p.1 p.2.mode = true := by
  simp [configsWell, hkind]

/-- The PULSE lines are those of the configurations, each once. -/
theorem configs_keys_nodup {cl : Claim} {configs : LineConfigs} (hlines : cl.linesWell = true)
    (hconfigs : configsWell cl configs = true) : (configs.map Prod.fst).Nodup := by
  cases hkind : cl.kind with
  | exclusive =>
    rw [((configsWell_exclusive_iff hkind configs).1 hconfigs).1]
    exact (Claim.lines_pairwise hlines).imp ne_of_lt
  | shared =>
    have hnil : configs = [] := by simpa [configsWell, hkind] using hconfigs
    rw [hnil]
    exact List.nodup_nil

/-- A lease of which some lines get new configurations keeps its shape, if its PULSE lines stay. -/
theorem recordWell_replaced {cl : Claim} {h : Held} {ps : LineConfigs} (hb : (EntryBody.held cl h).recordWell = true)
    (hkind : cl.kind = .exclusive) (hmodes : ∀ l k, configFor ps l = some k → modeAllowed true l k.mode = true)
    (hpulses : pulseLines (replaced h.configs ps) = pulseLines h.configs) :
    (EntryBody.held cl { h with configs := replaced h.configs ps }).recordWell = true := by
  obtain ⟨hlines, hconfigs, hpulse, hgroup, hwatch⟩ := (recordWell_held_iff cl h).1 hb
  obtain ⟨hfst, hold⟩ := (configsWell_exclusive_iff hkind h.configs).1 hconfigs
  rw [recordWell_held_iff]
  refine ⟨hlines, (configsWell_exclusive_iff hkind _).2 ⟨(map_fst_replaced ..).trans hfst, ?_⟩, ?_, ?_, hwatch⟩
  · exact forall_replaced (Q := fun l k => modeAllowed true l k.mode = true) hold hmodes
  · unfold pulseWell at hpulse ⊢
    rwa [hpulses]
  · dsimp only
    rwa [hpulses]

/-- RECONFIGURE leaves the PULSE lines of a lease (R40). -/
theorem pulseLines_reconfigured {cl : Claim} {h : Held} {ps : LineConfigs} (hb : (EntryBody.held cl h).recordWell = true)
    (hmodes : ∀ p ∈ ps, modeAllowed false p.1 p.2.mode = true) (hpulse : ∀ p ∈ ps, isPulseIn h.configs p.1 = false) :
    pulseLines (replaced h.configs ps) = pulseLines h.configs := by
  obtain ⟨hlines, hconfigs, -⟩ := (recordWell_held_iff cl h).1 hb
  refine pulseLines_replaced fun p hp k hk => ?_
  have hmem := mem_of_lookup hk
  have hnew : k.mode ≠ .pulse := fun hk => by
    have := hmodes _ hmem
    rw [hk] at this
    nomatch this
  have hold := hpulse _ hmem
  rw [isPulseIn_of_some (lookup_of_mem (configs_keys_nodup hlines hconfigs) hp)] at hold
  exact ⟨fun h => absurd h hnew, fun h => absurd h (of_decide_eq_false hold)⟩

/-- WRITE LEVELS leaves the PULSE lines of a lease (R98). -/
theorem pulseLines_leveled {cl : Claim} {h : Held} (ps : List (Line × Level)) (hb : (EntryBody.held cl h).recordWell = true) :
    pulseLines (replaced h.configs (withLevels h.configs ps)) = pulseLines h.configs := by
  obtain ⟨hlines, hconfigs, -⟩ := (recordWell_held_iff cl h).1 hb
  refine pulseLines_replaced fun p hp k hk => ?_
  obtain ⟨c, v, hc, -, rfl⟩ := configFor_withLevels hk
  obtain rfl : p.2 = c := Option.some.inj ((lookup_of_mem (configs_keys_nodup hlines hconfigs) hp).symm.trans hc)
  exact Iff.rfl

/-! ## Watches and updates -/

/-- A new watch of some different lines of a lease (R103, R104). -/
theorem State.armedWatch_well (s : State) {lines : List Line} {filter : Nat} {ps : List (Line × Sense)}
    (hfilter : 1 ≤ filter ∧ filter ≤ 15) (hn : (ps.map Prod.fst).Nodup) (hpos : 1 ≤ ps.length)
    (hlines : ∀ p ∈ ps, p.1 ∈ lines) : (s.armedWatch filter ps).well lines = true := by
  have hkeys : (s.armedWatch filter ps).lines.map WatchedLine.line = ascendingLines (ps.map Prod.fst) :=
    map_ascending ps (fun l sense => WatchedLine.mk l sense s.lastSample[l] 0) WatchedLine.line fun _ _ => rfl
  have hlen : (s.armedWatch filter ps).lines.length = ps.length := by
    rw [← List.length_map (f := WatchedLine.line), hkeys, (ascendingLines_perm hn).length_eq, List.length_map]
  have hall : ∀ x ∈ (s.armedWatch filter ps).lines, x.line ∈ lines ∧ x.run < filter := by
    intro x hx
    obtain ⟨l, -, hl⟩ := List.mem_filterMap.1 hx
    obtain ⟨sense, hsense, rfl⟩ := Option.map_eq_some_iff.1 hl
    exact ⟨hlines _ (mem_of_lookup hsense), by dsimp only; omega⟩
  have hrun : (s.armedWatch filter ps).filter = filter := rfl
  simp only [Watch.well, hkeys, hlen, hrun, Bool.and_eq_true, decide_eq_true_eq, List.all_eq_true, List.contains_iff_mem]
  exact ⟨⟨⟨hfilter, hpos⟩, ascendingLines_pairwise _⟩, hall⟩

theorem WatchedLine.step_line (filter : Nat) (x : WatchedLine) (v : Level) : (x.step filter v).1.line = x.line := by
  unfold WatchedLine.step
  split
  · rfl
  · split <;> rfl

theorem WatchedLine.step_run {filter : Nat} {x : WatchedLine} (v : Level) (h : x.run < filter) :
    (x.step filter v).1.run < filter := by
  unfold WatchedLine.step
  split
  · dsimp only
    omega
  · split
    · dsimp only
      omega
    · dsimp only
      omega

theorem Watch.step_well {lines : List Line} {w : Watch} (samples : Vector Level 24) (h : w.well lines = true) :
    (w.step samples).well lines = true := by
  simp only [Watch.well, Bool.and_eq_true, decide_eq_true_eq, List.all_eq_true, List.contains_iff_mem] at h ⊢
  obtain ⟨⟨⟨hfilter, hpos⟩, hsorted⟩, hall⟩ := h
  have hkeys : (w.step samples).lines.map WatchedLine.line = w.lines.map WatchedLine.line := by
    rw [Watch.step, List.map_map]
    exact List.map_congr_left fun x _ => x.step_line _ _
  refine ⟨⟨⟨hfilter, ?_⟩, hkeys ▸ hsorted⟩, fun x hx => ?_⟩
  · simpa [Watch.step] using hpos
  · obtain ⟨y, hy, rfl⟩ := List.mem_map.1 hx
    obtain ⟨hline, hrun⟩ := hall y hy
    exact ⟨(y.step_line _ _).symm ▸ hline, WatchedLine.step_run _ hrun⟩

theorem PulseSetting.well_iff (k : Nat) (p : PulseSetting) :
    p.well k = true ↔ isDivider p.divider = true ∧ 2 ≤ p.period ∧ p.period ≤ 65535 ∧ p.highs.length = k ∧
      ∀ n ∈ p.highs, n ≤ p.period := by
  simp [PulseSetting.well, and_assoc]

/-- The update of a SET PULSE that passes its checks suits the group (R122, R123). -/
theorem PulseRequest.setting_well {k : Nat} {p : PulseSetting} {r : PulseRequest} {rest : List Byte} (hp : p.well k = true)
    (hrequest : pulseRequest rest = .ok r) (hcount : ∀ hs, r.highs = some hs → hs.length = k)
    (hhighs : ∀ n ∈ (r.setting p).highs, n ≤ (r.setting p).period) : (r.setting p).well k = true := by
  obtain ⟨hdiv, hperiod⟩ := pulseRequest_ok hrequest
  rw [PulseSetting.well_iff] at hp ⊢
  obtain ⟨hdiv', hlow, hhigh, hlen, -⟩ := hp
  refine ⟨?_, ?_, ?_, ?_, hhighs⟩ <;> unfold PulseRequest.setting
  · cases h : r.divider with
    | none => exact hdiv'
    | some d => exact hdiv d h
  · cases h : r.period with
    | none => exact hlow
    | some n => exact (hperiod n h).1
  · cases h : r.period with
    | none => exact hhigh
    | some n => exact (hperiod n h).2
  · cases h : r.highs with
    | none => exact hlen
    | some hs => exact hcount hs h

/-- The setting of a group that is there suits its PULSE lines (R23). -/
theorem setting_well_of_pulseWell {configs : LineConfigs} {p : PulseSetting} (h : pulseWell configs (some p) = true) :
    p.well (pulseLines configs).length = true := by
  simp only [pulseWell, Bool.and_eq_true] at h
  exact h.2.2

theorem pulseWell_of_setting {configs : LineConfigs} {p q : PulseSetting} (h : pulseWell configs (some p) = true)
    (hq : q.well (pulseLines configs).length = true) : pulseWell configs (some q) = true := by
  simp only [pulseWell, Bool.and_eq_true] at h ⊢
  exact ⟨h.1, h.2.1, hq⟩

/-! ## Every change -/

theorem BodyEdit.recordWell {b b' : EntryBody} (h : BodyEdit b b') (hb : b.recordWell = true) : b'.recordWell = true := by
  cases h with
  | freed => rfl
  | entombed r cl hlive => cases b with
    | free => rfl
    | ended => exact hb
    | waiting => exact EntryBody.recordWell_lines hb rfl
    | held => exact EntryBody.recordWell_lines hb rfl
  | queued c body r n hrequest =>
    obtain ⟨hlines, hconfigs, hpulse⟩ := AcquireRequest.records (acquireRequest_well hrequest) c
    simp [EntryBody.recordWell, AcquireRequest.waiting, hlines, hconfigs, hpulse]
  | renewed cl h rest t hterm => cases t <;> exact hb
  | watched s cl h rest filter ps hrequest hlines =>
    obtain ⟨hfilter, hn, hpos, -⟩ := watchRequest_ok hrequest
    obtain ⟨hcl, hconfigs, hpulse, hgroup, -⟩ := (recordWell_held_iff cl h).1 hb
    refine (recordWell_held_iff ..).2 ⟨hcl, hconfigs, hpulse, hgroup, fun w hw => ?_⟩
    obtain rfl := Option.some.inj hw
    exact s.armedWatch_well hfilter hn hpos hlines
  | unwatched cl h =>
    obtain ⟨hcl, hconfigs, hpulse, hgroup, -⟩ := (recordWell_held_iff cl h).1 hb
    exact (recordWell_held_iff ..).2 ⟨hcl, hconfigs, hpulse, hgroup, nofun⟩
  | pulsed cl h g rest r hgroup hrequest hcount hhighs =>
    obtain ⟨hcl, hconfigs, hpulse, hwell, hwatch⟩ := (recordWell_held_iff cl h).1 hb
    rw [hgroup] at hpulse
    refine (recordWell_held_iff ..).2 ⟨hcl, hconfigs, hpulse, fun g' hg' => ?_, hwatch⟩
    obtain rfl := Option.some.inj hg'
    have hg := hwell g hgroup
    have hsetting := PulseRequest.setting_well (setting_well_of_pulseWell hpulse) hrequest hcount hhighs
    simp only [PulseGroup.well, Bool.and_eq_true] at hg ⊢
    exact ⟨hg.1, hsetting⟩
  | reconfigured cl h rest ps hkind hpairs hpulse =>
    obtain ⟨-, hmodes⟩ := reconfigurePairs_ok hpairs
    exact recordWell_replaced hb hkind (fun l k hk => modeAllowed_of_false (hmodes _ (mem_of_lookup hk)))
      (pulseLines_reconfigured hb hmodes hpulse)
  | leveled cl h ps hkind htakes =>
    obtain ⟨-, hconfigs, -⟩ := (recordWell_held_iff cl h).1 hb
    obtain ⟨-, hmodes⟩ := (configsWell_exclusive_iff hkind _).1 hconfigs
    refine recordWell_replaced hb hkind (fun l k hk => ?_) (pulseLines_leveled ps hb)
    obtain ⟨c, v, hc, -, rfl⟩ := configFor_withLevels hk
    exact hmodes _ (mem_of_lookup hc)
  | converting v => cases b <;> exact hb
  | converted r => cases b <;> exact hb
  | collected => cases b <;> exact hb
  | sampled _ samples => cases b with
    | held cl h =>
      obtain ⟨hcl, hconfigs, hpulse, hgroup, hwatch⟩ := (recordWell_held_iff cl h).1 hb
      refine (recordWell_held_iff ..).2 ⟨hcl, hconfigs, hpulse, hgroup, fun w hw => ?_⟩
      obtain ⟨w', hw', rfl⟩ := Option.map_eq_some_iff.1 hw
      exact Watch.step_well samples (hwatch w' hw')
    | _ => exact hb
  | termCounted => exact hb
  | waitCounted => exact hb
  | pulseApplied cl h g u hgroup hupdate =>
    obtain ⟨hcl, hconfigs, hpulse, hwell, hwatch⟩ := (recordWell_held_iff cl h).1 hb
    rw [hgroup] at hpulse
    have hg := hwell g hgroup
    simp only [PulseGroup.well, hupdate, Bool.and_eq_true] at hg
    refine (recordWell_held_iff ..).2 ⟨hcl, hconfigs, pulseWell_of_setting hpulse hg.2, fun g' hg' => ?_, hwatch⟩
    obtain rfl := Option.some.inj hg'
    simp only [PulseGroup.well, Bool.and_eq_true]
    exact ⟨hg.1, trivial⟩

/-- What a request asks for has the shape of a lease's record. -/
theorem Requests.well {b : EntryBody} {cl : Claim} {configs : LineConfigs} {pulse : Option PulseSetting} {due : Option Nat}
    (h : Requests b cl configs pulse due) (hb : b.recordWell = true) :
    cl.linesWell = true ∧ configsWell cl configs = true ∧ pulseWell configs pulse = true := by
  cases h with
  | waiting cl w =>
    simp only [EntryBody.recordWell, Bool.and_eq_true] at hb
    exact ⟨hb.1.1, hb.1.2, hb.2⟩
  | acquire c body r hrequest => exact AcquireRequest.records (acquireRequest_well hrequest) c

theorem BodyChange.recordWell {b b' : EntryBody} (h : BodyChange b b') (hb : b.recordWell = true) :
    b'.recordWell = true := by
  cases h with
  | edit h => exact h.recordWell hb
  | @granted cl configs pulse due hrequest gs hfresh hcount =>
    obtain ⟨hlines, hconfigs, hpulse⟩ := hrequest.well hb
    refine (recordWell_held_iff ..).2 ⟨hlines, hconfigs, ?_, fun g hg => ?_, nofun⟩
    · cases pulse <;> exact hpulse
    · obtain ⟨p, rfl, rfl⟩ := Option.map_eq_some_iff.1 hg
      have hlen : gs.length = (pulseLines configs).length := hcount
      simp [PulseGroup.well, heldAtGrant, hlen, hfresh]

theorem RecordLaw.part {row : Instr} {s t : State} (h : EventPart row s t) (hs : RecordLaw s) : RecordLaw t :=
  h.keeps_bodies (Q := fun b => b.recordWell = true) (fun _ _ h => h.recordWell) hs

/-- Settles O51: every change of an entry's body keeps the shape of its record (`BodyChange.recordWell`). -/
theorem recordsStayWellFormed : Obligations.RecordsStayWellFormed := by
  unfold Obligations.RecordsStayWellFormed
  exact fun s t hs h => step_keeps (P := RecordLaw) (fun _ _ hs => hs) (fun _ _ _ hs => hs) (fun _ _ _ h hs => hs.part h) hs h

end Sys2Proof.Machine
end

section
/-!
PROOF. No client owns more than 8 entries and a DETACHED one owns nothing (O50). Only an ACQUIRE gives a client an entry, and it
waits in the slot of an ATTACHED client alone; DETACH is the one command that leaves its own slot to be answered after its
session has ended, so that the law of waiting commands is open for its client until the response is written.
-/

namespace Sys2Proof.Machine

/-! ## Owners -/

/-- No client owns an entry that it did not own. -/
def State.OwnedLe (s t : State) : Prop :=
  ∀ (i : Slot) (d : Client), (t.entry i).body.ownedBy d = true → (s.entry i).body.ownedBy d = true

theorem State.OwnedLe.trans {s t u : State} (h₁ : s.OwnedLe t) (h₂ : t.OwnedLe u) : s.OwnedLe u :=
  fun i d h => h₁ i d (h₂ i d h)

theorem State.OwnedLe.of_entries {s t : State} (h : t.entries = s.entries) : s.OwnedLe t := by
  intro i d
  unfold State.entry
  rw [h]
  exact id

theorem State.OwnedLe.of_entry {s t : State} (i : Slot) (g : Fin 8) (b : EntryBody)
    (ht : ∀ j, t.entry j = if j = i then ⟨g, b⟩ else s.entry j)
    (hb : ∀ d, b.ownedBy d = true → (s.entry i).body.ownedBy d = true) : s.OwnedLe t := by
  intro j d
  rw [ht]
  split
  · next hj => exact hj ▸ hb d
  · exact id

theorem EntryBody.ownedBy_withConv (b : EntryBody) (v : ConvState) (d : Client) : (b.withConv v).ownedBy d = b.ownedBy d := by
  cases b <;> rfl

theorem State.deliver_ownedLe (s : State) (i : Slot) (l : Line) (value : Option Nat) (st : ResultStatus) :
    s.OwnedLe (s.deliver i l value st) :=
  .of_entry i _ _ (s.entry_deliver i · l value st) fun d h => by cases hb : (s.entry i).body <;> rwa [hb] at h

theorem startNext_ownedLe (q : List Request) (s : State) : s.OwnedLe (startNext q s) :=
  startNext_keeps s.OwnedLe (fun _ h => h.trans (.of_entries rfl)) (fun t _ h => h.trans (t.deliver_ownedLe _ _ _ _))
    (fun t r _ h _ => h.trans (.of_entry r.slot _ _ (t.entry_setBody r.slot · _) fun d => by
      rw [EntryBody.ownedBy_withConv]; exact id)) q s (.of_entries rfl)

theorem State.completeRequest_ownedLe (s : State) (f : InFlight) : s.OwnedLe (s.completeRequest f) := by
  unfold State.completeRequest
  split
  · exact startNext_ownedLe _ _
  · exact (s.deliver_ownedLe _ _ _ _).trans (startNext_ownedLe _ _)

theorem State.requestConversion_ownedLe (s : State) (r : Request) : s.OwnedLe (s.requestConversion r) := by
  have hq : s.OwnedLe
      { s.setBody r.slot ((s.entry r.slot).body.withConv .queued) with convQueue := s.convQueue ++ [r] } :=
    .of_entry r.slot _ _ (s.entry_setBody r.slot · _) fun d => by rw [EntryBody.ownedBy_withConv]; exact id
  unfold State.requestConversion
  dsimp only
  split
  · exact hq.trans (startNext_ownedLe _ _)
  · exact hq

/-- One HELD entry of a client is written again as HELD by it. -/
theorem State.OwnedLe.of_held {s t : State} {i : Slot} {cl cl' : Claim} {h h' : Held} (hbody : (s.entry i).body = .held cl h)
    (howner : cl'.owner = cl.owner)
    (ht : ∀ j, t.entry j = if j = i then ⟨(s.entry i).generation, .held cl' h'⟩ else s.entry j) : s.OwnedLe t := by
  refine .of_entry i _ _ ht fun d => ?_
  rw [hbody]
  simp [EntryBody.ownedBy, EntryBody.claim, howner]

section
variable {row : Instr} {s t : State}

/-- Only an ACQUIRE gives a client an entry, and one alone (R33). -/
theorem EventPart.owned (h : EventPart row s t) :
    s.OwnedLe t ∨ ∃ (c : Client) (tag : Byte) (body : List Byte) (i : Slot), row = .acquire c ∧ Sent s c .acquire tag body ∧
      (s.ownedSlots c).length < 8 ∧
      ∀ (j : Slot) (d : Client), (t.entry j).body.ownedBy d = true → (s.entry j).body.ownedBy d = true ∨ (j = i ∧ d = c) := by
  cases h with
  | side h => exact .inl (.of_entries (by rw [h.leases]))
  | clear p cause =>
    refine .inl fun i d h => ?_
    simp [State.entry, State.cleared, State.reset, EntryBody.ownedBy, EntryBody.claim] at h
  | lease h =>
    have taken {c : Client} {r : AcquireRequest} {i : Slot} {b : EntryBody} (hb : b.claim = some (r.claim c))
        (ht : ∀ j, t.entry j = if j = i then ⟨(s.entry i).generation, b⟩ else s.entry j) (j : Slot) (d : Client)
        (h : (t.entry j).body.ownedBy d = true) : (s.entry j).body.ownedBy d = true ∨ (j = i ∧ d = c) := by
      rw [ht] at h
      split at h
      · next hj =>
        obtain ⟨cl, hcl, rfl⟩ := (EntryBody.ownedBy_iff _ _).1 h
        obtain rfl := Option.some.inj (hb.symm.trans hcl)
        exact .inr ⟨hj, rfl⟩
      · exact .inl h
    cases h with
    | acquire c tag body r i hrow hsent hrequest hquota =>
      exact .inr ⟨c, tag, body, i, hrow, hsent, hquota, taken rfl (s.entry_grantLease i · ..)⟩
    | queue c tag body r i hrow hsent hrequest hquota =>
      exact .inr ⟨c, tag, body, i, hrow, hsent, hquota, taken rfl (s.entry_queueRequest i · c r)⟩
    | retire i =>
      refine .inl fun j d h => ?_
      rw [State.entry_retire] at h
      split at h
      · simp [EntryBody.ownedBy, EntryBody.claim] at h
      · exact h
    | entomb i r =>
      exact .inl (.of_entry i _ _ (s.entry_entomb i · r) fun d h => by cases hb : (s.entry i).body <;> rwa [hb] at h)
    | grant older i cl w hbody =>
      refine .inl (.of_entry i _ _ (fun j => State.entry_grantLease ..) fun d h => ?_)
      rw [hbody]
      exact h
    | renew i cl h rest t hbody => exact .inl (.of_held hbody (by cases t <;> rfl) (s.entry_setBody i · _))
    | setWatch i cl h rest filter ps hbody => exact .inl (.of_held hbody rfl (s.entry_setBody i · _))
    | clearWatch i cl h hbody => exact .inl (.of_held hbody rfl (s.entry_setBody i · _))
    | setPulse i cl h g rest r hbody => exact .inl (.of_held hbody rfl (s.entry_setBody i · _))
    | reconfigure i cl h rest ps hbody => exact .inl (.of_held hbody rfl (s.entry_reconfigureLease i · cl h ps))
    | writeLevels i cl h rest ps hbody => exact .inl (.of_held hbody rfl (s.entry_reconfigureLease i · cl h _))
    | convert r => exact .inl (s.requestConversion_ownedLe r)
    | collectLease c i =>
      refine .inl (.of_entry i _ _ (s.entry_fetchLease c i ·) fun d h => ?_)
      split at h
      · cases hb : (s.entry i).body <;> rwa [hb] at h
      · exact h
    | countTerm i cl h hbody => exact .inl (.of_held hbody rfl (s.entry_countTerm i · cl h))
    | countWait i cl w wl hbody =>
      exact .inl (.of_entry i _ _ (s.entry_countWait i · cl w wl) fun d h => by rw [hbody]; exact h)
    | sample samples =>
      refine .inl fun i d h => ?_
      rw [State.entry_takeSample] at h
      cases hb : (s.entry i).body <;> rwa [hb] at h
    | wrap i =>
      refine .inl fun j d h => ?_
      obtain heq | ⟨cl, hd, g, u, hbody, -, -, rfl, hentry⟩ := s.entry_wrapGroup i j
      · rwa [heq] at h
      · rw [hentry] at h
        rw [hbody]
        exact h
    | complete => exact .inl (s.completeRequest_ownedLe _)
    | _ => exact .inl (.of_entries rfl)

/-- A client that comes to own no entry owns some of those that it owned. -/
theorem State.ownedSlots_sublist {c : Client}
    (h : ∀ i, (t.entry i).body.ownedBy c = true → (s.entry i).body.ownedBy c = true) :
    (t.ownedSlots c).Sublist (s.ownedSlots c) := by
  have hfilter : t.ownedSlots c = (s.ownedSlots c).filter fun i => (t.entry i).body.ownedBy c := by
    rw [State.ownedSlots, State.ownedSlots, List.filter_filter]
    refine List.filter_congr fun i _ => ?_
    by_cases hi : (t.entry i).body.ownedBy c = true
    · simp [hi, h i hi]
    · simp [hi]
  rw [hfilter]
  exact List.filter_sublist

/-- One entry more is one slot more. -/
theorem length_ownedSlots_le {c : Client} {i : Slot}
    (h : ∀ j, (t.entry j).body.ownedBy c = true → (s.entry j).body.ownedBy c = true ∨ j = i) :
    (t.ownedSlots c).length ≤ (s.ownedSlots c).length + 1 := by
  have hsub : t.ownedSlots c ⊆ i :: s.ownedSlots c := fun j hj => by
    rw [List.mem_cons, State.mem_ownedSlots]
    exact (h j ((t.mem_ownedSlots c j).1 hj)).symm
  exact (t.ownedSlots_nodup c).length_le_of_subset hsub

/-! ## Sessions -/

/-- What a client that is not ATTACHED may have (R33, R146, R150, R157). -/
def State.sessionWithin (s : State) (c : Client) : Prop :=
  (s.ownedSlots c).length ≤ 8 ∧
    ((s.client c).attached = false → s.ownedSlots c = [] ∧ s.gained[c] = none ∧ s.cursors[c] = 31)

theorem State.waitingCommandServed_iff (s : State) (c : Client) :
    s.waitingCommandServed c = true ↔
      ∀ a, (s.slot c).state = .busy a → a.command = .attach ∨ (s.client c).attached = true := by
  unfold State.waitingCommandServed
  cases h : (s.slot c).state <;> simp

/-- The law of sessions within the event of a row: the command of a DETACH may wait after its session has ended. -/
def SessionsWithin (row : Instr) (s : State) : Prop :=
  ∀ c : Client, s.sessionWithin c ∧ (s.waitingCommandServed c = true ∨ row = .detach c)

/-- A part after which a client is ATTACHED just if it was, with no more entries, its reason and cursor as they were or
cleared, and no new command. -/
theorem State.sessionWithin.of_le {c : Client} (hs : s.sessionWithin c)
    (howned : ∀ i, (t.entry i).body.ownedBy c = true → (s.entry i).body.ownedBy c = true)
    (hattached : (t.client c).attached = false → (s.client c).attached = false)
    (hgained : t.gained[c] = s.gained[c] ∨ t.gained[c] = none) (hcursor : t.cursors[c] = s.cursors[c] ∨ t.cursors[c] = 31) :
    t.sessionWithin c := by
  obtain ⟨hlen, hdetached⟩ := hs
  have hsub := State.ownedSlots_sublist howned
  refine ⟨hsub.length_le.trans hlen, fun h => ?_⟩
  obtain ⟨hnone, hg, hc⟩ := hdetached (hattached h)
  refine ⟨List.sublist_nil.1 (hnone ▸ hsub), ?_, ?_⟩
  · obtain h | h := hgained
    · rw [h, hg]
    · exact h
  · obtain h | h := hcursor
    · rw [h, hc]
    · exact h

theorem State.waitingCommandServed_of_le {c : Client} (hs : s.waitingCommandServed c = true)
    (hslot : ∀ a, (t.slot c).state = .busy a →
      (s.slot c).state = .busy a ∨ a.command = .attach ∨ (t.client c).attached = true)
    (hattached : (s.client c).attached = true → (t.client c).attached = true) : t.waitingCommandServed c = true := by
  rw [State.waitingCommandServed_iff] at hs ⊢
  intro a ha
  obtain h | h := hslot a ha
  · exact (hs a h).imp_right hattached
  · exact h

theorem vector_set_self {α : Type} {n : Nat} (v : Vector α n) (i : Fin n) (a : α) : (v.set i a)[i] = a := by simp

theorem vector_set_of_ne {α : Type} {n : Nat} (v : Vector α n) {i j : Fin n} (h : j ≠ i) (a : α) : (v.set i a)[j] = v[j] := by
  rw [Fin.getElem_fin, Vector.getElem_set_ne _ _ (Fin.val_ne_of_ne (Ne.symm h))]
  rfl

theorem State.client_endSession (s : State) (c d : Client) (reason : LastEnd) :
    (s.endSession c reason).client d = if d = c then (s.client c).ended reason else s.client d :=
  State.client_setClient ..

theorem State.slot_emptySlot (s : State) (c d : Client) :
    (s.emptySlot c).slot d = if d = c then ⟨.none, false, false⟩ else s.slot d := State.slot_setSlot ..

/-- After the end of its session a client has neither entries nor notices (R167). -/
theorem SessionsWithin.endSession (hs : SessionsWithin row s) (c : Client) (reason : LastEnd) (hown : s.ownedSlots c = [])
    (d : Client) : (s.endSession c reason).sessionWithin d := by
  by_cases hd : d = c
  · subst hd
    have howned : (s.endSession d reason).ownedSlots d = [] := hown
    exact ⟨by rw [howned]; exact Nat.zero_le _, fun _ => ⟨howned, vector_set_self .., vector_set_self ..⟩⟩
  · refine (hs d).1.of_le (fun _ h => h) (fun h => ?_) (.inl (vector_set_of_ne _ hd _)) (.inl (vector_set_of_ne _ hd _))
    rwa [State.client_endSession, if_neg hd] at h

theorem SessionsWithin.side (h : SidePart row s t) (hs : SessionsWithin row s) : SessionsWithin row t := by
  have same (hframe : t = { t with
      entries := s.entries, clients := s.clients, slots := s.slots, gained := s.gained, cursors := s.cursors }) :
      SessionsWithin row t := by
    rw [hframe]
    exact hs
  have howned : s.OwnedLe t := .of_entries (by rw [h.leases])
  /- Where one client's record changes and it is ATTACHED as before, or becomes so. -/
  have record {c : Client} {r : ClientRecord} (ht : t = s.setClient c r) (hr : (s.client c).attached = true → r.attached = true)
      : SessionsWithin row t := by
    have hattached (d : Client) (hd : (s.client d).attached = true) : (t.client d).attached = true := by
      rw [ht, State.client_setClient]
      split
      · next hdc => exact hr (hdc ▸ hd)
      · exact hd
    intro d
    refine ⟨(hs d).1.of_le (howned · d) (fun h => ?_) (.inl (by rw [ht]; rfl)) (.inl (by rw [ht]; rfl)), (hs d).2.imp_left fun hd => ?_⟩
    · exact Bool.eq_false_iff.2 fun hd => Bool.eq_false_iff.1 h (hattached d hd)
    · exact State.waitingCommandServed_of_le hd (fun a ha => .inl (by rw [ht] at ha; exact ha)) (hattached d)
  cases h with
  | ports _ t hframe hclient hslot =>
    have hattached (d : Client) : (t.client d).attached = (s.client d).attached := by
      obtain h | ⟨-, h⟩ := hclient d <;> rw [h]
      rfl
    intro d
    refine ⟨(hs d).1.of_le (howned · d) (fun h => (hattached d).symm.trans h) (.inl (by rw [hframe])) (.inl (by rw [hframe])),
      (hs d).2.imp_left fun hd => State.waitingCommandServed_of_le hd (fun a ha => ?_) fun h => (hattached d).trans h⟩
    exact (hslot d a ha).imp_right (Or.imp_right fun h => (hattached d).trans h)
  | respond c tag a =>
    intro d
    refine ⟨(hs d).1, (hs d).2.imp_left fun hd => State.waitingCommandServed_of_le (s := s) (t := s.respond c tag a) hd (fun b hb => .inl ?_) id⟩
    rw [State.respond, State.slot_setSlot] at hb
    split at hb
    · nomatch hb
    · exact hb
  | collectGain c =>
    intro d
    refine ⟨(hs d).1.of_le (howned · d) id ?_ (.inl rfl), (hs d).2⟩
    by_cases hd : d = c
    · exact .inr (hd ▸ vector_set_self ..)
    · exact .inl (vector_set_of_ne _ hd _)
  | close c reason hown hslot =>
    intro d
    refine ⟨hs.endSession c reason hown d, ?_⟩
    by_cases hd : d = c
    · subst hd
      obtain hrow | hattach := hslot
      · exact .inr hrow
      · exact .inl ((State.waitingCommandServed_iff ..).2 fun a ha => .inl (hattach a ha))
    · refine (hs d).2.imp_left fun h =>
        State.waitingCommandServed_of_le (s := s) (t := s.endSession c reason) h (fun a ha => .inl ha) fun h => ?_
      rwa [State.client_endSession, if_neg hd]
  | dismiss c reason hown =>
    intro d
    have hwithin : ((s.endSession c reason).emptySlot c).sessionWithin d := hs.endSession c reason hown d
    refine ⟨hwithin, ?_⟩
    by_cases hd : d = c
    · subst hd
      exact .inl ((State.waitingCommandServed_iff ..).2 fun a ha => by simp [State.slot_emptySlot] at ha)
    · refine (hs d).2.imp_left fun h => State.waitingCommandServed_of_le h (fun a ha => .inl ?_) fun h => ?_
      · rwa [State.slot_emptySlot, if_neg hd] at ha
      · rwa [State.client_emptySlot, State.client_endSession, if_neg hd]
  | openSession c timeout a => exact record rfl fun _ => rfl
  | setAttention c a => exact record rfl id
  | countSession c n => exact record rfl id
  | handOver c n hrow hc hn =>
    intro d
    by_cases hd : d = n
    · subst hd
      exact ⟨⟨(hs d).1.1, fun h => absurd (h.symm.trans hn) nofun⟩, (hs d).2⟩
    · exact ⟨(hs d).1.of_le (howned · d) id (.inl (vector_set_of_ne _ hd _)) (.inl rfl), (hs d).2⟩
  | _ => exact same rfl

theorem SessionsWithin.lease (h : LeasePart row s t) (hs : SessionsWithin row s) : SessionsWithin row t := by
  have hclient (d : Client) : t.client d = s.client d := by rw [h.frame]; rfl
  have hgained : t.gained = s.gained := by rw [h.frame]
  have hserved (d : Client) : t.waitingCommandServed d = s.waitingCommandServed d := by rw [h.frame]; rfl
  /- The cursor of a DETACHED client stays: a fetch moves that of an owner. -/
  have hcursor (d : Client) (hd : (s.client d).attached = false) : t.cursors[d] = s.cursors[d] := by
    obtain h | ⟨c, ps, -, -, rfl⟩ | ⟨c, i, hown, rfl⟩ | ⟨samples, rfl⟩ := h.leasesOnly
    · rw [h]
    · rfl
    · have hne : d ≠ c := by
        rintro rfl
        have hmem := (s.mem_ownedSlots d i).2 hown
        rw [((hs d).1.2 hd).1] at hmem
        nomatch hmem
      exact vector_set_of_ne _ hne _
    · rfl
  intro d
  refine ⟨?_, by rw [hserved]; exact (hs d).2⟩
  have hother (hle : ∀ i, (t.entry i).body.ownedBy d = true → (s.entry i).body.ownedBy d = true) : t.sessionWithin d := by
    by_cases hd : (s.client d).attached = false
    · exact (hs d).1.of_le hle (fun _ => hd) (.inl (by rw [hgained])) (.inl (hcursor d hd))
    · exact ⟨(State.ownedSlots_sublist hle).length_le.trans (hs d).1.1, fun h => absurd (by rwa [hclient] at h) hd⟩
  obtain hle | ⟨c, tag, body, i, hrow, hsent, hquota, htaken⟩ := EventPart.owned (.lease h)
  · exact hother (hle · d)
  · by_cases hd : d = c
    · subst hd
      have hserve : s.waitingCommandServed d = true := (hs d).2.resolve_right (by rw [hrow]; nofun)
      have hattached : (s.client d).attached = true :=
        ((State.waitingCommandServed_iff s d).1 hserve _ hsent).resolve_left nofun
      refine ⟨?_, fun h => absurd ((hclient d ▸ h).symm.trans hattached) nofun⟩
      have := length_ownedSlots_le (c := d) (i := i) fun j hj => (htaken j d hj).imp_right And.left
      omega
    · exact hother fun j hj => (htaken j d hj).resolve_right fun h => hd h.2

theorem SessionsWithin.part (h : EventPart row s t) (hs : SessionsWithin row s) : SessionsWithin row t := by
  cases h with
  | side h => exact hs.side h
  | lease h => exact hs.lease h
  | clear p cause =>
    have howned (c : Client) : (s.cleared p cause).ownedSlots c = [] := by
      simp [State.ownedSlots, State.entry, State.cleared, State.reset, EntryBody.ownedBy, EntryBody.claim]
    intro c
    refine ⟨⟨by rw [howned]; exact Nat.zero_le _, fun _ => ⟨howned c, ?_, ?_⟩⟩, .inl ?_⟩
    · simp [State.cleared, State.reset]
    · simp [State.cleared, State.reset]
    · simp [State.waitingCommandServed, State.slot, State.cleared, State.reset]

end

theorem sessionLaw_iff {row : Instr} (hrow : ∀ c, row ≠ .detach c) (s : State) : SessionLaw s ↔ SessionsWithin row s := by
  refine forall_congr' fun c => ?_
  simp [State.sessionWithin, hrow]
  tauto

/-- A DETACH leaves its slot READY, or changes nothing (log 5). -/
theorem SessionLaw.detach {s : State} (hs : SessionLaw s) (c : Client) :
    SessionLaw (takeCommand .detach detachReply c s) := by
  have hwithin : SessionsWithin (.detach c) s := fun d => ⟨⟨(hs d).1, (hs d).2.2⟩, .inl (hs d).2.1⟩
  have hevent : SessionsWithin (.detach c) (takeCommand .detach detachReply c s) :=
    (detach_event c).keeps (P := SessionsWithin (.detach c)) (fun _ _ h hs => hs.part h) hwithin
  obtain ⟨-, h⟩ | ⟨tag, body, -, h⟩ := takeCommand_cases .detach detachReply c s
  · rwa [h]
  · intro d
    obtain ⟨⟨hlen, hdetached⟩, hserved⟩ := hevent d
    refine ⟨hlen, ?_, hdetached⟩
    obtain hserved | hd := hserved
    · exact hserved
    · obtain rfl := Instr.detach.inj hd
      rw [State.waitingCommandServed_iff, h]
      intro a ha
      rw [State.respond_eq, State.slot_setSlot, if_pos rfl] at ha
      nomatch ha

/-- Settles O50: each part of an event keeps the law, but for the command of a DETACH, which its response replaces
(`SessionsWithin.part`, `SessionLaw.detach`). -/
theorem sessionsStayWithinQuota : Obligations.SessionsStayWithinQuota := by
  unfold Obligations.SessionsStayWithinQuota
  intro s t hs h
  unfold step at h
  split at h
  · obtain rfl : s.idle = t := Host.Outcome.next.inj h
    obtain h | ⟨-, -, h⟩ := s.idle_cases <;> rw [h]
    · exact hs
    · exact hs
  · next row rest _ =>
    by_cases hrow : ∃ c, row = .detach c
    · obtain ⟨c, rfl⟩ := hrow
      obtain rfl : takeCommand .detach detachReply c { s with pending := rest } = t := Host.Outcome.next.inj h
      exact SessionLaw.detach (s := { s with pending := rest }) hs c
    · have hother : ∀ c, row ≠ .detach c := fun c h => hrow ⟨c, h⟩
      have hwithin : SessionsWithin row { s with pending := rest } :=
        (sessionLaw_iff hother { s with pending := rest }).1 hs
      exact (sessionLaw_iff hother t).2 ((exec_event_of_next h).keeps (P := SessionsWithin row) (fun _ _ h hs => hs.part h) hwithin)

end Sys2Proof.Machine
end

section
/-!
PROOF. Every effective configuration is that of its source (O52). With well formed records and holders apart the source of a
line is the one lease that gives it a configuration, or the idle plan (`SourceAgrees`); a part that changes lines gives them the
configurations of one lease that gains, changes or loses them (`SourceAgrees.of_lines`).
-/

namespace Sys2Proof.Machine

/-! ## Sources -/

/-- The configurations that a HELD lease gives its lines. -/
def EntryBody.heldConfigs : EntryBody → LineConfigs
  | .held _ h => h.configs
  | _ => []

theorem EntryBody.givesConfig_eq (b : EntryBody) (l : Line) : b.givesConfig l = configFor b.heldConfigs l := by
  cases b <;> rfl

/-- The line has the configuration of each lease that gives it one, and its idle plan entry where none does. -/
structure SourceAgrees (s : State) : Prop where
  held : ∀ (i : Slot) (l : Line) (k : LineConfig), configFor (s.entry i).body.heldConfigs l = some k → s.effective[l] = k
  idle : ∀ l : Line, (∀ i : Slot, configFor (s.entry i).body.heldConfigs l = none) → s.effective[l] = s.idlePlan[l]

theorem configFor_isSome_iff (ps : LineConfigs) (l : Line) : (configFor ps l).isSome = true ↔ l ∈ ps.map Prod.fst :=
  lookup_isSome_iff_mem ps l

theorem configFor_eq_none_iff (ps : LineConfigs) (l : Line) : configFor ps l = none ↔ l ∉ ps.map Prod.fst := by
  rw [← configFor_isSome_iff, Option.not_isSome_iff_eq_none]

/-- The lines that configurations are for, where these suit the claim (R21). -/
theorem configFor_eq_none_iff_of_well {cl : Claim} {configs : LineConfigs} (h : configsWell cl configs = true) (l : Line) :
    configFor configs l = none ↔ ¬(cl.kind = .exclusive ∧ l ∈ cl.lines) := by
  rw [configFor_eq_none_iff]
  cases hkind : cl.kind with
  | exclusive => rw [((configsWell_exclusive_iff hkind configs).1 h).1]; simp
  | shared =>
    have hnil : configs = [] := by simpa [configsWell, hkind] using h
    simp [hnil]

/-- A lease gives a line a configuration exactly when it is its exclusive holder (R5). -/
theorem EntryBody.heldConfigs_none_iff {b : EntryBody} (hb : b.recordWell = true) (l : Line) :
    configFor b.heldConfigs l = none ↔ b.holdsExclusive l = false := by
  cases b with
  | held cl h =>
    obtain ⟨-, hconfigs, -⟩ := (recordWell_held_iff cl h).1 hb
    rw [EntryBody.heldConfigs, configFor_eq_none_iff_of_well hconfigs]
    simp [EntryBody.holdsExclusive, EntryBody.heldClaim]
  | _ => exact iff_of_true rfl rfl

theorem EntryBody.holdsExclusive_of_gives {b : EntryBody} (hb : b.recordWell = true) {l : Line} {k : LineConfig}
    (h : configFor b.heldConfigs l = some k) : b.holdsExclusive l = true := by
  by_contra hne
  have hnone := (EntryBody.heldConfigs_none_iff hb l).2 (Bool.eq_false_iff.2 hne)
  rw [hnone] at h
  nomatch h

/-- No other lease gives a configuration to a line with an exclusive holder (R56). -/
theorem HolderLaw.gives_none {s : State} (hholder : HolderLaw s) (hrecord : RecordLaw s) {i j : Slot} (hij : j ≠ i) {l : Line}
    (hl : (s.entry i).body.holdsExclusive l = true) : configFor (s.entry j).body.heldConfigs l = none :=
  (EntryBody.heldConfigs_none_iff (hrecord j) l).2 (hholder i j (Ne.symm hij) l hl).1

theorem sourceLaw_iff {s : State} (hrecord : RecordLaw s) (hholder : HolderLaw s) : SourceLaw s ↔ SourceAgrees s := by
  /- Where the slot found gives the line its configuration, and where there is none. -/
  have hfound {i : Slot} {l : Line} {k : LineConfig} (hk : configFor (s.entry i).body.heldConfigs l = some k) :
      s.sourceConfig l = k := by
    have hi := EntryBody.holdsExclusive_of_gives (hrecord i) hk
    unfold State.sourceConfig
    split
    · next hnone => exact absurd hi (by rw [(s.exclusiveSlot_none_iff l).1 hnone i]; nofun)
    · next j hj =>
      obtain rfl : i = j := by
        by_contra hij
        have hex := s.exclusiveSlot_some hj
        rw [(hholder i j hij l hi).1] at hex
        nomatch hex
      rw [EntryBody.givesConfig_eq, hk, Option.getD_some]
  have hnone {l : Line} (hl : ∀ i : Slot, configFor (s.entry i).body.heldConfigs l = none) :
      s.sourceConfig l = s.idlePlan[l] := by
    have : s.exclusiveSlot l = none :=
      (s.exclusiveSlot_none_iff l).2 fun i => (EntryBody.heldConfigs_none_iff (hrecord i) l).1 (hl i)
    unfold State.sourceConfig
    rw [this]
  refine ⟨fun h => ⟨fun i l k hk => (h l).trans (hfound hk), fun l hl => (h l).trans (hnone hl)⟩, fun h l => ?_⟩
  by_cases hl : ∀ i : Slot, configFor (s.entry i).body.heldConfigs l = none
  · rw [hnone hl, h.idle l hl]
  · obtain ⟨i, hi⟩ := not_forall.1 hl
    obtain ⟨k, hk⟩ := Option.ne_none_iff_exists'.1 hi
    rw [hfound hk, h.held i l k hk]

/-! ## Parts that change no source -/

/-- No lease, idle plan entry or line gives or gets another configuration. -/
structure State.SameSource (s t : State) : Prop where
  effective : t.effective = s.effective
  idlePlan : t.idlePlan = s.idlePlan
  configs : ∀ i : Slot, (t.entry i).body.heldConfigs = (s.entry i).body.heldConfigs

theorem SourceAgrees.same {s t : State} (hs : SourceAgrees s) (h : s.SameSource t) : SourceAgrees t := by
  refine ⟨fun i l k hk => ?_, fun l hl => ?_⟩
  · rw [h.effective]
    exact hs.held i l k (h.configs i ▸ hk)
  · rw [h.effective, h.idlePlan]
    exact hs.idle l fun i => h.configs i ▸ hl i

theorem State.SameSource.trans {s t u : State} (h₁ : s.SameSource t) (h₂ : t.SameSource u) : s.SameSource u :=
  ⟨h₂.effective.trans h₁.effective, h₂.idlePlan.trans h₁.idlePlan, fun i => (h₂.configs i).trans (h₁.configs i)⟩

theorem State.SameSource.of_entries {s t : State} (heff : t.effective = s.effective) (hplan : t.idlePlan = s.idlePlan)
    (hent : t.entries = s.entries) : s.SameSource t :=
  ⟨heff, hplan, fun i => by unfold State.entry; rw [hent]⟩

theorem State.SameSource.of_entry {s t : State} (i : Slot) (g : Fin 8) (b : EntryBody) (heff : t.effective = s.effective)
    (hplan : t.idlePlan = s.idlePlan) (ht : ∀ j, t.entry j = if j = i then ⟨g, b⟩ else s.entry j)
    (hb : b.heldConfigs = (s.entry i).body.heldConfigs) : s.SameSource t := by
  refine ⟨heff, hplan, fun j => ?_⟩
  rw [ht]
  split
  · next hj => exact hj ▸ hb
  · rfl

theorem EntryBody.heldConfigs_withConv (b : EntryBody) (v : ConvState) : (b.withConv v).heldConfigs = b.heldConfigs := by
  cases b <;> rfl

theorem EntryBody.heldConfigs_withResult (b : EntryBody) (r : ConvResult) : (b.withResult r).heldConfigs = b.heldConfigs := by
  cases b <;> rfl

theorem State.deliver_sameSource (s : State) (i : Slot) (l : Line) (value : Option Nat) (st : ResultStatus) :
    s.SameSource (s.deliver i l value st) :=
  .of_entry i _ _ rfl rfl (s.entry_deliver i · l value st) (EntryBody.heldConfigs_withResult _ _)

theorem startNext_sameSource (q : List Request) (s : State) : s.SameSource (startNext q s) :=
  startNext_keeps s.SameSource (fun _ h => h.trans (.of_entries rfl rfl rfl)) (fun t _ h => h.trans (t.deliver_sameSource ..))
    (fun t r _ h _ => h.trans
      (.of_entry r.slot _ _ rfl rfl (t.entry_setBody r.slot · _) (EntryBody.heldConfigs_withConv _ _))) q s
    (.of_entries rfl rfl rfl)

theorem State.completeRequest_sameSource (s : State) (f : InFlight) : s.SameSource (s.completeRequest f) := by
  unfold State.completeRequest
  split
  · exact startNext_sameSource _ _
  · exact (s.deliver_sameSource ..).trans (startNext_sameSource _ _)

theorem State.requestConversion_sameSource (s : State) (r : Request) : s.SameSource (s.requestConversion r) := by
  have hq : s.SameSource
      { s.setBody r.slot ((s.entry r.slot).body.withConv .queued) with convQueue := s.convQueue ++ [r] } :=
    .of_entry r.slot _ _ rfl rfl (s.entry_setBody r.slot · _) (EntryBody.heldConfigs_withConv _ _)
  unfold State.requestConversion
  dsimp only
  split
  · exact hq.trans (startNext_sameSource _ _)
  · exact hq

/-- A HELD entry is written again with its configurations. -/
theorem State.SameSource.of_held {s t : State} {i : Slot} {cl cl' : Claim} {h h' : Held} (hbody : (s.entry i).body = .held cl h)
    (ht : ∀ j, t.entry j = if j = i then ⟨(s.entry i).generation, .held cl' h'⟩ else s.entry j)
    (hconfigs : h'.configs = h.configs) (heff : t.effective = s.effective) (hplan : t.idlePlan = s.idlePlan) :
    s.SameSource t :=
  .of_entry i _ _ heff hplan ht (by rw [hbody]; exact hconfigs)

/-! ## Parts that change lines -/

/-- Some lines get new configurations, from one entry that gives them or, as it gives them up, from the idle plan (R12 to
R14). -/
theorem SourceAgrees.of_lines {s t : State} (hs : SourceAgrees s) (ps : LineConfigs) (i : Slot)
    (hplan : t.idlePlan = s.idlePlan) (hother : ∀ j, j ≠ i → t.entry j = s.entry j)
    (heff : ∀ l : Line, t.effective[l] = (configFor ps l).getD s.effective[l])
    (hnamed : ∀ l k, configFor ps l = some k →
      (configFor (t.entry i).body.heldConfigs l = some k ∨
        (configFor (t.entry i).body.heldConfigs l = none ∧ k = s.idlePlan[l])) ∧
      ∀ j, j ≠ i → configFor (s.entry j).body.heldConfigs l = none)
    (hkept : ∀ l, configFor ps l = none →
      configFor (t.entry i).body.heldConfigs l = configFor (s.entry i).body.heldConfigs l) : SourceAgrees t := by
  refine ⟨fun j l k hk => ?_, fun l hl => ?_⟩
  · rw [heff]
    cases hps : configFor ps l with
    | none =>
      rw [Option.getD_none]
      by_cases hj : j = i
      · subst hj
        exact hs.held j l k (hkept l hps ▸ hk)
      · exact hs.held j l k (hother j hj ▸ hk)
    | some k' =>
      obtain ⟨hgives, hnone⟩ := hnamed l k' hps
      by_cases hj : j = i
      · subst hj
        obtain h | ⟨h, -⟩ := hgives
        · exact Option.some.inj (h.symm.trans hk)
        · nomatch h.symm.trans hk
      · rw [hother j hj] at hk
        nomatch (hnone j hj).symm.trans hk
  · rw [heff, hplan]
    cases hps : configFor ps l with
    | none =>
      refine hs.idle l fun j => ?_
      by_cases hj : j = i
      · subst hj
        exact hkept l hps ▸ hl j
      · exact hother j hj ▸ hl j
    | some k =>
      obtain ⟨h | ⟨-, h⟩, -⟩ := hnamed l k hps
      · nomatch (hl i).symm.trans h
      · exact h

/-- The lines that the end of an entry returns to the idle plan (R14). -/
def EntryBody.returnedLines : EntryBody → List Line
  | .held cl _ => match cl.kind with | .exclusive => cl.lines | .shared => []
  | _ => []

theorem State.undoEntry_effective (s : State) (i : Slot) (l : Line) :
    (s.undoEntry i).effective[l] = (configFor (s.idleConfigs (s.entry i).body.returnedLines) l).getD s.effective[l] := by
  have hdrop (t : State) (v : ConvState) : (t.dropConversion i v).effective = t.effective := by cases v <;> rfl
  unfold State.undoEntry
  cases hb : (s.entry i).body with
  | held cl h =>
    dsimp only
    rw [State.endEffects, hdrop, State.stopGenerators_effective, State.returnLines, EntryBody.returnedLines]
    cases cl.kind with
    | exclusive => exact s.configureLines_line _ l
    | shared => rfl
  | _ => rfl

theorem EntryBody.mem_returnedLines (b : EntryBody) (l : Line) : l ∈ b.returnedLines ↔ b.holdsExclusive l = true := by
  cases b with
  | held cl h =>
    cases hk : cl.kind <;> simp [EntryBody.returnedLines, EntryBody.holdsExclusive, EntryBody.heldClaim, hk]
  | _ => simp [EntryBody.returnedLines, EntryBody.holdsExclusive, EntryBody.heldClaim]

/-- An entry that gives up its lines leaves them to the idle plan (R14). -/
theorem SourceAgrees.undone {s t : State} (hs : SourceAgrees s) (hrecord : RecordLaw s) (hholder : HolderLaw s) (i : Slot)
    (hplan : t.idlePlan = s.idlePlan) (heff : t.effective = (s.undoEntry i).effective)
    (hi : (t.entry i).body.heldConfigs = []) (hother : ∀ j, j ≠ i → t.entry j = s.entry j) : SourceAgrees t := by
  refine hs.of_lines (s.idleConfigs (s.entry i).body.returnedLines) i hplan hother (fun l => heff ▸ s.undoEntry_effective i l)
    (fun l k hk => ?_) fun l hl => ?_
  · rw [configFor_idleConfigs] at hk
    split at hk
    · next hl =>
      refine ⟨.inr ⟨by rw [hi]; rfl, (Option.some.inj hk).symm⟩, fun j hj => ?_⟩
      exact hholder.gives_none hrecord hj ((EntryBody.mem_returnedLines _ l).1 hl)
    · nomatch hk
  · rw [configFor_idleConfigs] at hl
    split at hl
    · nomatch hl
    · next hnot =>
      have hfree : (s.entry i).body.holdsExclusive l = false :=
        Bool.eq_false_iff.2 (mt (EntryBody.mem_returnedLines _ l).2 hnot)
      rw [hi, (EntryBody.heldConfigs_none_iff (hrecord i) l).2 hfree]
      rfl

theorem State.grantLease_effective (s : State) (i : Slot) (cl : Claim) (configs : LineConfigs) (p : Option PulseSetting)
    (due : Option Nat) (l : Line) :
    (s.grantLease i cl configs p due).effective[l] = (configFor configs l).getD s.effective[l] := by
  cases p <;> exact State.configureLines_line _ configs l

@[simp] theorem State.grantLease_idlePlan (s : State) (i : Slot) (cl : Claim) (configs : LineConfigs)
    (p : Option PulseSetting) (due : Option Nat) : (s.grantLease i cl configs p due).idlePlan = s.idlePlan := by
  cases p <;> rfl

theorem SourceAgrees.grant {s t : State} (hs : SourceAgrees s) (hrecord : RecordLaw s) (h : GrantPart s t) :
    SourceAgrees t := by
  obtain ⟨older, i, cl, configs, pulse, due, u, hu, hgrant, hrequest⟩ := h
  obtain ⟨-, hconfigs, -⟩ := hrequest.well (hrecord i)
  obtain ⟨-, hunheld, -, -⟩ := (s.grantable_iff older _).1 hgrant
  have heffective : u.effective = s.effective := by obtain rfl | rfl := hu <;> rfl
  have hplan : u.idlePlan = s.idlePlan := by obtain rfl | rfl := hu <;> rfl
  have hentry (j : Slot) : u.entry j = s.entry j := by obtain rfl | rfl := hu <;> rfl
  have hnew : ((u.grantLease i cl configs pulse due).entry i).body.heldConfigs = configs := by
    rw [State.entry_grantLease, if_pos rfl]
    rfl
  have hold : (s.entry i).body.heldConfigs = [] := by
    generalize (s.entry i).body = b at hrequest
    cases hrequest <;> rfl
  refine hs.of_lines configs i ((State.grantLease_idlePlan ..).trans hplan) (fun j hj => ?_) (fun l => ?_) (fun l k hk => ?_)
    fun l hl => ?_
  · rw [State.entry_grantLease, if_neg hj, hentry]
  · rw [State.grantLease_effective, heffective]
  · refine ⟨.inl (by rw [hnew]; exact hk), fun j _ => (EntryBody.heldConfigs_none_iff (hrecord j) l).2 ?_⟩
    obtain ⟨-, hl⟩ : cl.kind = .exclusive ∧ l ∈ cl.lines := by
      by_contra hnot
      nomatch hk.symm.trans ((configFor_eq_none_iff_of_well hconfigs l).2 hnot)
    exact (State.unheldFor_apart hunheld j (l := l) hl).1
  · rw [hnew, hold, hl]
    rfl

theorem configFor_cons (p : Line × LineConfig) (ps : LineConfigs) (l : Line) :
    configFor (p :: ps) l = if l = p.1 then some p.2 else configFor ps l := by
  rw [configFor, List.lookup_cons]
  by_cases h : l = p.1
  · simp [h]
  · rw [beq_eq_false_iff_ne.2 h, if_neg h]
    rfl

theorem configFor_replaced (configs ps : LineConfigs) (l : Line) :
    configFor (replaced configs ps) l = (configFor configs l).map fun c => (configFor ps l).getD c := by
  induction configs with
  | nil => rfl
  | cons p configs ih =>
    have hcons : replaced (p :: configs) ps = (p.1, (configFor ps p.1).getD p.2) :: replaced configs ps := rfl
    rw [hcons, configFor_cons, configFor_cons, ih]
    by_cases h : l = p.1
    · rw [if_pos h, if_pos h, h]
      rfl
    · rw [if_neg h, if_neg h]

/-- The pairs of a list whose lines are chosen. -/
theorem configFor_filter (f : Line → Bool) (ps : LineConfigs) (l : Line) :
    configFor (ps.filter fun p => f p.1) l = if f l then configFor ps l else none := by
  induction ps with
  | nil => exact (ite_self none).symm
  | cons p ps ih =>
    rw [List.filter_cons, configFor_cons]
    by_cases hl : l = p.1
    · subst hl
      by_cases hf : f p.1 = true
      · rw [if_pos hf, configFor_cons, if_pos rfl, if_pos rfl, if_pos hf]
      · rw [if_neg hf, ih, if_neg hf, if_neg hf]
    · rw [if_neg hl]
      split
      · rw [configFor_cons, if_neg hl, ih]
      · exact ih

/-- A lease that gives some of its lines new configurations (R13). -/
theorem SourceAgrees.reconfigure {s : State} (hs : SourceAgrees s) (hrecord : RecordLaw s) (hholder : HolderLaw s) {i : Slot}
    {cl : Claim} {h : Held} (hbody : (s.entry i).body = .held cl h) (hkind : cl.kind = .exclusive) (ps : LineConfigs)
    (hlines : ∀ l k, configFor ps l = some k → l ∈ cl.lines) : SourceAgrees (s.reconfigureLease i cl h ps) := by
  have hwell := hrecord i
  rw [hbody] at hwell
  obtain ⟨-, hconfigs, -⟩ := (recordWell_held_iff cl h).1 hwell
  have hnew (l : Line) : configFor ((s.reconfigureLease i cl h ps).entry i).body.heldConfigs l =
      (configFor h.configs l).map fun c => (configFor ps l).getD c := by
    rw [State.entry_reconfigureLease, if_pos rfl]
    exact configFor_replaced ..
  refine hs.of_lines ps i rfl (fun j hj => ?_) (fun l => State.configureLines_line _ ps l) (fun l k hk => ?_) fun l hl => ?_
  · rw [State.entry_reconfigureLease, if_neg hj]
  · have hl : l ∈ cl.lines := hlines l k hk
    have hholds : (s.entry i).body.holdsExclusive l = true :=
      (EntryBody.holdsExclusive_iff _ l).2 ⟨cl, by rw [hbody]; rfl, hkind, hl⟩
    refine ⟨.inl ?_, fun j hj => hholder.gives_none hrecord hj hholds⟩
    rw [hnew, hk]
    cases hc : configFor h.configs l with
    | none => exact absurd ⟨hkind, hl⟩ ((configFor_eq_none_iff_of_well hconfigs l).1 hc)
    | some c => rfl
  · rw [hnew, hl, hbody]
    cases hc : configFor h.configs l <;> simp [EntryBody.heldConfigs, hc]

/-- Each line that no lease gives a configuration takes its new idle plan entry (R10). -/
theorem SourceAgrees.storeIdlePlan {s : State} (hs : SourceAgrees s) (hrecord : RecordLaw s) (ps : LineConfigs) :
    SourceAgrees (s.storeIdlePlan ps) := by
  have hatOnce (l : Line) : configFor (s.atOnce ps) l = if s.followsIdlePlan l then configFor ps l else none :=
    configFor_filter s.followsIdlePlan ps l
  have heff (l : Line) : (s.storeIdlePlan ps).effective[l] = (configFor (s.atOnce ps) l).getD s.effective[l] :=
    State.configureLines_line _ (s.atOnce ps) l
  have hplan (l : Line) : (s.storeIdlePlan ps).idlePlan[l] = (configFor ps l).getD s.idlePlan[l] := tabulate_getElem _ l
  have hentry (j : Slot) : (s.storeIdlePlan ps).entry j = s.entry j := rfl
  refine ⟨fun i l k hk => ?_, fun l hl => ?_⟩
  · have hi := EntryBody.holdsExclusive_of_gives (hrecord i) (hentry i ▸ hk)
    have hfollows : s.followsIdlePlan l = false := by
      rw [State.followsIdlePlan, Option.isNone_eq_false_iff, Option.isSome_iff_ne_none, ne_eq, s.exclusiveSlot_none_iff]
      exact fun h => by rw [h i] at hi; nomatch hi
    rw [heff, hatOnce, hfollows]
    exact hs.held i l k hk
  · have hfollows : s.followsIdlePlan l = true := by
      rw [State.followsIdlePlan, Option.isNone_iff_eq_none, s.exclusiveSlot_none_iff]
      exact fun i => (EntryBody.heldConfigs_none_iff (hrecord i) l).1 (hl i)
    rw [heff, hplan, hatOnce, hfollows, if_pos rfl, hs.idle l fun i => hl i]

/-! ## Every part -/

theorem SourceAgrees.lease {row : Instr} {s t : State} (hs : SourceAgrees s) (hrecord : RecordLaw s) (hholder : HolderLaw s)
    (h : LeasePart row s t) : SourceAgrees t := by
  obtain hgrant | - := h.grants_or_edits
  · exact hs.grant hrecord hgrant
  cases h with
  | retire i =>
    by_cases hfree : (s.entry i).body = .free
    · rwa [State.retire, if_pos hfree]
    · have hframe : s.retire i = ((s.undoEntry i).setEntry i ⟨(s.entry i).generation + 1, .free⟩).discardNotices i := by
        rw [State.retire, if_neg hfree]
      refine hs.undone hrecord hholder i ?_ (by rw [hframe]; rfl) ?_ fun j hj => by rw [State.entry_retire, if_neg fun h => hj h.1]
      · rw [hframe, State.undoEntry_eq]
        rfl
      · rw [State.entry_retire, if_pos ⟨rfl, hfree⟩]
        rfl
  | entomb i r =>
    refine hs.undone hrecord hholder i ?_ rfl ?_ fun j hj => by rw [State.entry_entomb, if_neg hj]
    · rw [State.entomb, State.undoEntry_eq]
      rfl
    · rw [State.entry_entomb, if_pos rfl]
      cases (s.entry i).body <;> rfl
  | grant older i cl w hbody hgrant =>
    exact hs.grant hrecord (.mk older i cl _ _ _ _ (.inr rfl) hgrant (hbody ▸ .waiting cl w))
  | acquire c tag body r i hrow hsent hrequest hquota hfree hgrant =>
    exact hs.grant hrecord (.mk s.waitList i _ _ _ _ s (.inl rfl) hgrant (hfree ▸ .acquire c body r hrequest))
  | queue c tag body r i hrow hsent hrequest hquota hfree =>
    exact hs.same (.of_entry i _ _ rfl rfl (s.entry_queueRequest i · c r) (by rw [hfree]; rfl))
  | renew i cl h rest t hbody => exact hs.same (.of_held hbody (s.entry_setBody i · _) (by cases t <;> rfl) rfl rfl)
  | setWatch i cl h rest filter ps hbody => exact hs.same (.of_held hbody (s.entry_setBody i · _) rfl rfl rfl)
  | clearWatch i cl h hbody => exact hs.same (.of_held hbody (s.entry_setBody i · _) rfl rfl rfl)
  | setPulse i cl h g rest r hbody => exact hs.same (.of_held hbody (s.entry_setBody i · _) rfl rfl rfl)
  | reconfigure i cl h rest ps hbody hkind _ hlines =>
    exact hs.reconfigure hrecord hholder hbody hkind ps fun l k hk => hlines _ (mem_of_lookup hk)
  | writeLevels i cl h rest ps hbody hkind _ hlines =>
    refine hs.reconfigure hrecord hholder hbody hkind _ fun l k hk => ?_
    obtain ⟨c, v, -, hmem, -⟩ := configFor_withLevels hk
    exact hlines _ hmem
  | convert r => exact hs.same (s.requestConversion_sameSource r)
  | collectLease c i =>
    refine hs.same (.of_entry i _ _ rfl rfl (s.entry_fetchLease c i ·) ?_)
    split
    · cases (s.entry i).body <;> rfl
    · rfl
  | storeIdlePlan c body ps => exact hs.storeIdlePlan hrecord ps
  | countTerm i cl h hbody =>
    have hframe := s.countTerm_leasesOnly i cl h
    refine hs.same (.of_held hbody (s.entry_countTerm i · cl h) rfl ?_ (by rw [hframe]))
    unfold State.countTerm State.postIfDue
    dsimp only
    split <;> rfl
  | countWait i cl w wl hbody =>
    exact hs.same (.of_entry i _ _ rfl rfl (s.entry_countWait i · cl w wl) (by rw [hbody]; rfl))
  | sample samples =>
    refine hs.same ⟨rfl, rfl, fun i => ?_⟩
    rw [State.entry_takeSample]
    cases (s.entry i).body <;> rfl
  | wrap i =>
    refine hs.same ⟨?_, ?_, fun j => ?_⟩
    · unfold State.wrapGroup
      split <;> rfl
    · rw [s.wrapGroup_leasesOnly i]
    · obtain h | ⟨cl, h, g, u, hbody, -, -, rfl, hentry⟩ := s.entry_wrapGroup i j
      · rw [h]
      · rw [hentry, hbody]
        rfl
  | complete => exact hs.same (s.completeRequest_sameSource _)
  | _ => exact hs.same (.of_entries rfl rfl rfl)

/-- Well formed records, holders apart and every line with its source. -/
structure SourcesLaw (s : State) : Prop where
  record : RecordLaw s
  holder : HolderLaw s
  source : SourceAgrees s

theorem SourcesLaw.part {row : Instr} {s t : State} (h : EventPart row s t) (hs : SourcesLaw s) : SourcesLaw t := by
  refine ⟨hs.record.part h, hs.holder.part h, ?_⟩
  cases h with
  | side h => exact hs.source.same (.of_entries (by rw [h.leases]) (by rw [h.leases]) (by rw [h.leases]))
  | lease h => exact hs.source.lease hs.record hs.holder h
  | clear p cause =>
    refine ⟨fun i l k hk => ?_, fun l _ => ?_⟩
    · have hfree : ((s.cleared p cause).entry i).body = .free := by simp [State.entry, State.cleared, State.reset]
      rw [hfree] at hk
      nomatch hk
    · simp [State.cleared, State.reset]

/-- Settles O52: with well formed records and holders apart, each part of an event keeps every line at its source
(`SourceAgrees.lease`). -/
theorem linesFollowTheirSource : Obligations.LinesFollowTheirSource := by
  unfold Obligations.LinesFollowTheirSource
  intro s t hrecord hholder hsource h
  have ht : SourcesLaw t := step_keeps (P := SourcesLaw) (fun _ _ hs => ⟨hs.record, hs.holder, hs.source.same (.of_entries rfl rfl rfl)⟩)
    (fun _ _ _ hs => ⟨hs.record, hs.holder, hs.source.same (.of_entries rfl rfl rfl)⟩) (fun _ _ _ h hs => hs.part h)
    ⟨hrecord, hholder, (sourceLaw_iff hrecord hholder).1 hsource⟩ h
  exact (sourceLaw_iff ht.record ht.holder).2 ht.source

end Sys2Proof.Machine
end

section
/-!
PROOF. A generator runs exactly for the lease that it is assigned to (O53). What the law reads of an entry is its assignment of
generators; it changes by a grant, by the end of a lease, and by the wrap that applies an update. The two counts of a group, and
the passing of a period, change the records of a whole group alike.
-/

namespace Sys2Proof.Machine

/-! ## The law, by what is assigned and what runs -/

/-- The assignment that a RUNNING generator counts by. -/
def Running.assigned (r : Running) : Assignment := ⟨r.line, r.divider, r.period, r.high⟩

/-- The count and the prescale position lie in their ranges (R117). -/
structure Running.InRange (r : Running) : Prop where
  count : r.count < r.period
  prescale : r.prescale < r.divider
  counting : r.counting = true → r.prescale = 0

/-- Two records stand at the same count and prescale position (R120). -/
structure Running.InStep (r r' : Running) : Prop where
  count : r.count = r'.count
  prescale : r.prescale = r'.prescale
  counting : r.counting = r'.counting

structure GeneratorsAgree (s : State) : Prop where
  owner : ∀ (g : GenIx) (i : Slot) (a : Assignment), (s.entry i).body.assignment g = some a →
    ∃ r, s.generators[g] = .running r ∧ r.slot = i
  runs : ∀ (g : GenIx) (r : Running), s.generators[g] = .running r →
    (s.entry r.slot).body.assignment g = some r.assigned ∧ r.InRange
  inStep : ∀ (g g' : GenIx) (r r' : Running), s.generators[g] = .running r → s.generators[g'] = .running r' →
    r.slot = r'.slot → r.InStep r'

theorem State.generatorAgrees_iff (s : State) (g : GenIx) :
    s.generatorAgrees g ↔
      (∀ (i : Slot) (a : Assignment), (s.entry i).body.assignment g = some a → ∃ r, s.generators[g] = .running r ∧ r.slot = i) ∧
        ∀ r, s.generators[g] = .running r → (s.entry r.slot).body.assignment g = some r.assigned ∧ r.InRange := by
  unfold State.generatorAgrees
  cases hg : s.generators[g] with
  | free =>
    refine ⟨fun h => ⟨fun i a ha => absurd ((h i).symm.trans ha) nofun, nofun⟩,
      fun h i => Option.eq_none_iff_forall_ne_some.2 fun a ha => ?_⟩
    obtain ⟨r, hr, -⟩ := h.1 i a ha
    nomatch hr
  | running r =>
    refine ⟨fun ⟨hassigned, hcount, hprescale, hcounting, hother⟩ => ⟨fun i a ha => ⟨r, rfl, ?_⟩, fun r' hr' => ?_⟩,
      fun ⟨howner, hruns⟩ => ?_⟩
    · by_contra hne
      nomatch (hother i (Ne.symm hne)).symm.trans ha
    · obtain rfl := Generator.running.inj hr'
      exact ⟨hassigned, hcount, hprescale, hcounting⟩
    · obtain ⟨hassigned, hcount, hprescale, hcounting⟩ := hruns r rfl
      refine ⟨hassigned, hcount, hprescale, hcounting, fun i hi => Option.eq_none_iff_forall_ne_some.2 fun a ha => ?_⟩
      obtain ⟨r', hr', rfl⟩ := howner i a ha
      exact hi (congrArg Running.slot (Generator.running.inj hr').symm)

theorem State.aligned_iff (s : State) (g g' : GenIx) :
    s.aligned g g' = true ↔ ∀ r r', s.generators[g] = .running r → s.generators[g'] = .running r' → r.slot = r'.slot →
      r.InStep r' := by
  unfold State.aligned
  cases s.generators[g] with
  | free => exact iff_of_true rfl nofun
  | running r =>
    cases s.generators[g'] with
    | free => exact iff_of_true rfl nofun
    | running r' =>
      simp only [Generator.record, Bool.or_eq_true, decide_eq_true_eq, Bool.and_eq_true]
      constructor
      · rintro h _ _ ⟨⟩ ⟨⟩ hslot
        obtain ⟨⟨hcount, hprescale⟩, hcounting⟩ := h.resolve_left fun hne => hne hslot
        exact ⟨hcount, hprescale, hcounting⟩
      · intro h
        by_cases hslot : r.slot = r'.slot
        · obtain ⟨hcount, hprescale, hcounting⟩ := h r r' rfl rfl hslot
          exact .inr ⟨⟨hcount, hprescale⟩, hcounting⟩
        · exact .inl hslot

theorem generatorLaw_iff (s : State) : GeneratorLaw s ↔ GeneratorsAgree s := by
  constructor
  · rintro ⟨hagrees, haligned⟩
    exact ⟨fun g => ((s.generatorAgrees_iff g).1 (hagrees g)).1, fun g => ((s.generatorAgrees_iff g).1 (hagrees g)).2,
      fun g g' => (s.aligned_iff g g').1 (haligned g g')⟩
  · rintro ⟨howner, hruns, hstep⟩
    exact ⟨fun g => (s.generatorAgrees_iff g).2 ⟨howner g, hruns g⟩, fun g g' => (s.aligned_iff g g').2 (hstep g g')⟩

/-! ## Assignments -/

theorem Generator.recordFor_eq_some_iff (g : Generator) (i : Slot) (r : Running) :
    g.recordFor i = some r ↔ g = .running r ∧ r.slot = i := by
  cases g with
  | free => exact iff_of_false nofun fun h => nomatch h.1
  | running r' =>
    unfold Generator.recordFor
    simp only [Option.ite_none_right_eq_some, Option.some.injEq, Generator.running.injEq]
    constructor
    · rintro ⟨rfl, rfl⟩
      exact ⟨rfl, rfl⟩
    · rintro ⟨rfl, rfl⟩
      exact ⟨rfl, rfl⟩

/-- The generators of one lease count by one divider and one period (R23). -/
theorem EntryBody.assignment_group {b : EntryBody} {g g' : GenIx} {a a' : Assignment} (h : b.assignment g = some a)
    (h' : b.assignment g' = some a') : a.divider = a'.divider ∧ a.period = a'.period := by
  cases b with
  | held cl hd =>
    unfold EntryBody.assignment at h h'
    dsimp only at h h'
    split at h
    · nomatch h
    · next p hp =>
      rw [hp] at h'
      obtain ⟨_, -, rfl⟩ := Option.map_eq_some_iff.1 h
      obtain ⟨_, -, rfl⟩ := Option.map_eq_some_iff.1 h'
      exact ⟨rfl, rfl⟩
  | _ => nomatch h

/-- An entry that is not HELD assigns no generator. -/
theorem EntryBody.assignment_of_heldClaim_none {b : EntryBody} (h : b.heldClaim = none) (g : GenIx) :
    b.assignment g = none := by
  cases b with
  | held => nomatch h
  | _ => rfl

theorem EntryBody.assignment_held {cl : Claim} {h : Held} {p : PulseGroup} (hp : h.pulse = some p) (g : GenIx) :
    (EntryBody.held cl h).assignment g =
      ((p.generators.zip ((pulseLines h.configs).zip p.setting.highs)).lookup g).map fun lh =>
        ⟨lh.1, p.setting.divider, p.setting.period, lh.2⟩ := by
  unfold EntryBody.assignment
  simp only [hp]

theorem EntryBody.assignment_held_none {cl : Claim} {h : Held} (hp : h.pulse = none) (g : GenIx) :
    (EntryBody.held cl h).assignment g = none := by
  unfold EntryBody.assignment
  simp only [hp]

/-- The assignment reads of a HELD entry its PULSE lines and its pulse group, but for the pending update. -/
theorem EntryBody.assignment_congr {cl cl' : Claim} {h h' : Held} (hlines : pulseLines h'.configs = pulseLines h.configs)
    (hpulse : h'.pulse.map (fun p => (p.setting, p.generators)) = h.pulse.map fun p => (p.setting, p.generators)) :
    (EntryBody.held cl' h').assignment = (EntryBody.held cl h).assignment := by
  funext g
  cases hp : h.pulse with
  | none =>
    rw [hp] at hpulse
    rw [EntryBody.assignment_held_none hp, EntryBody.assignment_held_none (by simpa using hpulse)]
  | some p =>
    rw [hp] at hpulse
    obtain ⟨p', hp', heq⟩ := Option.map_eq_some_iff.1 hpulse
    obtain ⟨hsetting, hgenerators⟩ := Prod.mk.inj heq
    rw [EntryBody.assignment_held hp, EntryBody.assignment_held hp', hsetting, hgenerators, hlines]

/-! ## Parts that change no assignment -/

/-- The generators, and the assignment of each entry, are as before. -/
structure State.SameGroups (s t : State) : Prop where
  generators : t.generators = s.generators
  assignment : ∀ i : Slot, (t.entry i).body.assignment = (s.entry i).body.assignment

theorem GeneratorsAgree.same {s t : State} (hs : GeneratorsAgree s) (h : s.SameGroups t) : GeneratorsAgree t := by
  obtain ⟨howner, hruns, hstep⟩ := hs
  constructor
  · simpa only [h.generators, h.assignment] using howner
  · simpa only [h.generators, h.assignment] using hruns
  · simpa only [h.generators] using hstep

theorem State.SameGroups.trans {s t u : State} (h₁ : s.SameGroups t) (h₂ : t.SameGroups u) : s.SameGroups u :=
  ⟨h₂.generators.trans h₁.generators, fun i => (h₂.assignment i).trans (h₁.assignment i)⟩

theorem State.SameGroups.of_entries {s t : State} (hgen : t.generators = s.generators) (hent : t.entries = s.entries) :
    s.SameGroups t :=
  ⟨hgen, fun i => by unfold State.entry; rw [hent]⟩

theorem State.SameGroups.of_entry {s t : State} (i : Slot) (g : Fin 8) (b : EntryBody) (hgen : t.generators = s.generators)
    (ht : ∀ j, t.entry j = if j = i then ⟨g, b⟩ else s.entry j) (hb : b.assignment = (s.entry i).body.assignment) :
    s.SameGroups t := by
  refine ⟨hgen, fun j => ?_⟩
  rw [ht]
  split
  · next hj => exact hj ▸ hb
  · rfl

theorem EntryBody.assignment_withConv (b : EntryBody) (v : ConvState) : (b.withConv v).assignment = b.assignment := by
  cases b <;> rfl

theorem EntryBody.assignment_withResult (b : EntryBody) (r : ConvResult) : (b.withResult r).assignment = b.assignment := by
  cases b <;> rfl

theorem State.deliver_sameGroups (s : State) (i : Slot) (l : Line) (value : Option Nat) (st : ResultStatus) :
    s.SameGroups (s.deliver i l value st) :=
  .of_entry i _ _ rfl (s.entry_deliver i · l value st) (EntryBody.assignment_withResult _ _)

theorem startNext_sameGroups (q : List Request) (s : State) : s.SameGroups (startNext q s) :=
  startNext_keeps s.SameGroups (fun _ h => h.trans (.of_entries rfl rfl)) (fun t _ h => h.trans (t.deliver_sameGroups ..))
    (fun t r _ h _ => h.trans
      (.of_entry r.slot _ _ rfl (t.entry_setBody r.slot · _) (EntryBody.assignment_withConv _ _))) q s (.of_entries rfl rfl)

theorem State.completeRequest_sameGroups (s : State) (f : InFlight) : s.SameGroups (s.completeRequest f) := by
  unfold State.completeRequest
  split
  · exact startNext_sameGroups _ _
  · exact (s.deliver_sameGroups ..).trans (startNext_sameGroups _ _)

theorem State.requestConversion_sameGroups (s : State) (r : Request) : s.SameGroups (s.requestConversion r) := by
  have hq : s.SameGroups
      { s.setBody r.slot ((s.entry r.slot).body.withConv .queued) with convQueue := s.convQueue ++ [r] } :=
    .of_entry r.slot _ _ rfl (s.entry_setBody r.slot · _) (EntryBody.assignment_withConv _ _)
  unfold State.requestConversion
  dsimp only
  split
  · exact hq.trans (startNext_sameGroups _ _)
  · exact hq

/-- A HELD entry is written again with its PULSE lines and its group, but for the pending update. -/
theorem State.SameGroups.of_held {s t : State} {i : Slot} {cl cl' : Claim} {h h' : Held} (hbody : (s.entry i).body = .held cl h)
    (ht : ∀ j, t.entry j = if j = i then ⟨(s.entry i).generation, .held cl' h'⟩ else s.entry j)
    (hgen : t.generators = s.generators) (hlines : pulseLines h'.configs = pulseLines h.configs)
    (hpulse : h'.pulse.map (fun p => (p.setting, p.generators)) = h.pulse.map fun p => (p.setting, p.generators)) :
    s.SameGroups t :=
  .of_entry i _ _ hgen ht (by rw [hbody]; exact EntryBody.assignment_congr hlines hpulse)

/-! ## The end of a lease -/

/-- No generator runs for an entry that assigns none. -/
theorem GeneratorsAgree.slot_ne {s : State} (hs : GeneratorsAgree s) {i : Slot}
    (hi : ∀ g, (s.entry i).body.assignment g = none) {g : GenIx} {r : Running} (hr : s.generators[g] = .running r) :
    r.slot ≠ i := by
  rintro rfl
  nomatch (hi g).symm.trans (hs.runs g r hr).1

/-- The lease in a slot ends, and its generators stop (R126). -/
theorem GeneratorsAgree.undone {s t : State} (hs : GeneratorsAgree s) (i : Slot)
    (hgen : ∀ g : GenIx, t.generators[g] = if (s.generators[g].recordFor i).isSome then .free else s.generators[g])
    (hi : ∀ g, (t.entry i).body.assignment g = none) (hother : ∀ j, j ≠ i → t.entry j = s.entry j) : GeneratorsAgree t := by
  /- A generator that still runs ran for another entry. -/
  have hrun {g : GenIx} {r : Running} (h : t.generators[g] = .running r) : s.generators[g] = .running r ∧ r.slot ≠ i := by
    rw [hgen] at h
    split at h
    · nomatch h
    · next hnone =>
      refine ⟨h, fun hslot => hnone ?_⟩
      rw [(Generator.recordFor_eq_some_iff _ _ _).2 ⟨h, hslot⟩]
      rfl
  refine ⟨fun g j a ha => ?_, fun g r hr => ?_, fun g g' r r' hr hr' hslot => ?_⟩
  · by_cases hj : j = i
    · subst hj
      nomatch (hi g).symm.trans ha
    · rw [hother j hj] at ha
      obtain ⟨r, hr, rfl⟩ := hs.owner g j a ha
      refine ⟨r, ?_, rfl⟩
      rw [hgen, if_neg, hr]
      rw [Option.not_isSome_iff_eq_none, Option.eq_none_iff_forall_ne_some]
      intro r' hr'
      obtain ⟨hr', hslot⟩ := (Generator.recordFor_eq_some_iff _ _ _).1 hr'
      obtain rfl := Generator.running.inj (hr.symm.trans hr')
      exact hj hslot
  · obtain ⟨hr, hne⟩ := hrun hr
    rw [hother _ hne]
    exact hs.runs g r hr
  · exact hs.inStep g g' r r' (hrun hr).1 (hrun hr').1 hslot

/-- The end of an entry stops the generators that run for it (R44). -/
theorem GeneratorsAgree.undoEntry_generator {s : State} (hs : GeneratorsAgree s) (i : Slot) (g : GenIx) :
    (s.undoEntry i).generators[g] = if (s.generators[g].recordFor i).isSome then .free else s.generators[g] := by
  have hnone (hclaim : (s.entry i).body.heldClaim = none) :
      s.generators[g] = if (s.generators[g].recordFor i).isSome then .free else s.generators[g] := by
    rw [if_neg]
    rw [Option.not_isSome_iff_eq_none, Option.eq_none_iff_forall_ne_some]
    intro r hr
    obtain ⟨hr, hslot⟩ := (Generator.recordFor_eq_some_iff _ _ _).1 hr
    exact hs.slot_ne (EntryBody.assignment_of_heldClaim_none hclaim) hr hslot
  unfold State.undoEntry
  cases hb : (s.entry i).body with
  | held cl h =>
    have hlines : (s.returnLines cl).generators = s.generators := by unfold State.returnLines; split <;> rfl
    have hdrop (t : State) (v : ConvState) : (t.dropConversion i v).generators = t.generators := by cases v <;> rfl
    dsimp only
    rw [State.endEffects, hdrop, State.stopGenerators_generator, hlines]
  | _ => exact hnone (by rw [hb]; rfl)

/-! ## A grant -/

theorem lookup_zip_map {α β γ : Type} [DecidableEq α] (f : β → γ) : ∀ (as : List α) (bs : List β) (a : α),
    (as.zip (bs.map f)).lookup a = ((as.zip bs).lookup a).map f
  | [], _, _ => rfl
  | _ :: _, [], _ => rfl
  | a' :: as, b :: bs, a => by
    rw [List.map_cons, List.zip_cons_cons, List.zip_cons_cons, List.lookup_cons, List.lookup_cons, lookup_zip_map f as bs a]
    cases a == a' <;> rfl

theorem mem_of_lookup_zip {α β : Type} [DecidableEq α] {as : List α} {bs : List β} {a : α} {b : β}
    (h : (as.zip bs).lookup a = some b) : a ∈ as := (List.of_mem_zip (mem_of_lookup h)).1

theorem isDivider_pos {n : Nat} (h : isDivider n = true) : 0 < n := by
  simp only [isDivider, decide_eq_true_eq, List.mem_cons, List.not_mem_nil, or_false] at h
  omega

/-- A lease is granted, and its generators start at count 0 (R70, R120). -/
theorem GeneratorsAgree.granted {s t : State} (hs : GeneratorsAgree s) (i : Slot) (ls : List Line) (gs : List GenIx)
    (p : PulseSetting) (hpos : 0 < p.period ∧ 0 < p.divider) (hfree : ∀ g ∈ gs, s.generators[g] = .free)
    (hold : ∀ g, (s.entry i).body.assignment g = none)
    (hgen : ∀ g : GenIx, t.generators[g] = match (gs.zip (ls.zip p.highs)).lookup g with
      | some lh => .running ⟨i, lh.1, p.divider, p.period, lh.2, 0, 0, false⟩
      | none => s.generators[g])
    (hnew : ∀ g, (t.entry i).body.assignment g =
      ((gs.zip (ls.zip p.highs)).lookup g).map fun lh => ⟨lh.1, p.divider, p.period, lh.2⟩)
    (hother : ∀ j, j ≠ i → t.entry j = s.entry j) : GeneratorsAgree t := by
  /- What runs is new and at its start, or ran for another entry. -/
  have hrun {g : GenIx} {r : Running} (h : t.generators[g] = .running r) :
      (∃ lh, (gs.zip (ls.zip p.highs)).lookup g = some lh ∧ r = ⟨i, lh.1, p.divider, p.period, lh.2, 0, 0, false⟩) ∨
        (s.generators[g] = .running r ∧ r.slot ≠ i) := by
    rw [hgen] at h
    split at h
    · next lh hlh => exact .inl ⟨lh, hlh, (Generator.running.inj h).symm⟩
    · exact .inr ⟨h, hs.slot_ne hold h⟩
  refine ⟨fun g j a ha => ?_, fun g r hr => ?_, fun g g' r r' hr hr' hslot => ?_⟩
  · by_cases hj : j = i
    · subst hj
      rw [hnew] at ha
      obtain ⟨lh, hlh, -⟩ := Option.map_eq_some_iff.1 ha
      exact ⟨_, by rw [hgen, hlh], rfl⟩
    · rw [hother j hj] at ha
      obtain ⟨r, hr, rfl⟩ := hs.owner g j a ha
      refine ⟨r, ?_, rfl⟩
      have hnone : (gs.zip (ls.zip p.highs)).lookup g = none := by
        refine Option.eq_none_iff_forall_ne_some.2 fun lh hlh => ?_
        nomatch (hfree g (mem_of_lookup_zip hlh)).symm.trans hr
      rw [hgen, hnone, hr]
  · obtain ⟨lh, hlh, rfl⟩ | ⟨hr, hne⟩ := hrun hr
    · refine ⟨?_, hpos.1, hpos.2, nofun⟩
      rw [hnew, hlh]
      rfl
    · rw [hother _ hne]
      exact hs.runs g r hr
  · obtain ⟨_, _, rfl⟩ | ⟨hr, hne⟩ := hrun hr
    · obtain ⟨_, _, rfl⟩ | ⟨_, hne⟩ := hrun hr'
      · exact ⟨rfl, rfl, rfl⟩
      · exact absurd hslot.symm hne
    · obtain ⟨_, _, rfl⟩ | ⟨hr', _⟩ := hrun hr'
      · exact absurd hslot hne
      · exact hs.inStep g g' r r' hr hr' hslot

theorem State.grantLease_generators (s : State) (i : Slot) (cl : Claim) (configs : LineConfigs) (p : Option PulseSetting)
    (due : Option Nat) : (s.grantLease i cl configs p due).generators = (s.startPulses i configs p).generators := rfl

theorem State.startPulses_generator (s : State) (i : Slot) (configs : LineConfigs) (p : PulseSetting) (g : GenIx) :
    (s.startPulses i configs (some p)).generators[g] =
      match ((s.assigned (pulseLines configs)).zip ((pulseLines configs).zip p.highs)).lookup g with
      | some lh => .running ⟨i, lh.1, p.divider, p.period, lh.2, 0, 0, false⟩
      | none => s.generators[g] := by
  rw [State.startPulses, State.startGenerators_generator, startedGenerators, lookup_zip_map]
  cases ((s.assigned (pulseLines configs)).zip ((pulseLines configs).zip p.highs)).lookup g <;> rfl

theorem Requests.heldClaim_none {b : EntryBody} {cl : Claim} {configs : LineConfigs} {pulse : Option PulseSetting}
    {due : Option Nat} (h : Requests b cl configs pulse due) : b.heldClaim = none := by
  cases h <;> rfl

theorem GeneratorsAgree.grant {s t : State} (hs : GeneratorsAgree s) (hrecord : RecordLaw s) (h : GrantPart s t) :
    GeneratorsAgree t := by
  obtain ⟨older, i, cl, configs, pulse, due, u, hu, hgrant, hrequest⟩ := h
  obtain ⟨-, -, hpulse⟩ := hrequest.well (hrecord i)
  have hold (g : GenIx) := EntryBody.assignment_of_heldClaim_none hrequest.heldClaim_none g
  have hgenerators : u.generators = s.generators := by obtain rfl | rfl := hu <;> rfl
  have hassigned : u.assigned (pulseLines configs) = s.assigned (pulseLines configs) := by obtain rfl | rfl := hu <;> rfl
  have hentry (j : Slot) : u.entry j = s.entry j := by obtain rfl | rfl := hu <;> rfl
  have hother (j : Slot) (hj : j ≠ i) : (u.grantLease i cl configs pulse due).entry j = s.entry j := by
    rw [State.entry_grantLease, if_neg hj, hentry]
  cases pulse with
  | none =>
    refine hs.same ⟨hgenerators, fun j => ?_⟩
    by_cases hj : j = i
    · subst hj
      funext g
      rw [hold, State.entry_grantLease, if_pos rfl, EntryBody.assignment_held_none rfl]
    · rw [hother j hj]
  | some p =>
    obtain ⟨hdivider, hperiod, -⟩ := (PulseSetting.well_iff _ p).1 (setting_well_of_pulseWell hpulse)
    refine hs.granted i (pulseLines configs) (s.assigned (pulseLines configs)) p ⟨by omega, isDivider_pos hdivider⟩
      (fun g hg => (s.mem_freeGenerators g).1 (List.mem_of_mem_take hg)) hold (fun g => ?_) (fun g => ?_) hother
    · rw [State.grantLease_generators, State.startPulses_generator, hassigned, hgenerators]
    · rw [State.entry_grantLease, if_pos rfl, EntryBody.assignment_held rfl, hassigned]
      rfl

/-! ## The counts of a group -/

/-- The records of a group change alike, and the assignment of its lease with them. -/
theorem GeneratorsAgree.mapGroup {s t : State} (hs : GeneratorsAgree s) (i : Slot) (f : Running → Running)
    (hgen : t.generators = (s.mapGroup i f).generators) (hother : ∀ j, j ≠ i → t.entry j = s.entry j)
    (hslot : ∀ r, (f r).slot = r.slot)
    (hnone : ∀ g, (s.entry i).body.assignment g = none → (t.entry i).body.assignment g = none)
    (hrun : ∀ (g : GenIx) (r : Running), s.generators[g] = .running r → r.slot = i →
      (t.entry i).body.assignment g = some (f r).assigned ∧ (f r).InRange)
    (hstep : ∀ r r' : Running, r.InStep r' → (f r).InStep (f r')) : GeneratorsAgree t := by
  have hmap {g : GenIx} {r : Running} (h : s.generators[g] = .running r) :
      t.generators[g] = .running (if r.slot = i then f r else r) := by
    rw [hgen, State.mapGroup_generator, h, Generator.recordFor]
    by_cases hi : r.slot = i <;> simp [hi]
  /- What runs is a changed record of the group, or another's as before. -/
  have hback {g : GenIx} {r : Running} (h : t.generators[g] = .running r) :
      ∃ r₀, s.generators[g] = .running r₀ ∧ r = if r₀.slot = i then f r₀ else r₀ := by
    cases hg : s.generators[g] with
    | free =>
      rw [hgen, State.mapGroup_generator, hg] at h
      nomatch h
    | running r₀ => exact ⟨r₀, rfl, Generator.running.inj (h.symm.trans (hmap hg))⟩
  have hkeep (r : Running) : (if r.slot = i then f r else r).slot = r.slot := by
    split
    · exact hslot r
    · rfl
  refine ⟨fun g j a ha => ?_, fun g r hr => ?_, fun g g' r r' hr hr' hsame => ?_⟩
  · obtain ⟨a₀, ha₀⟩ : ∃ a₀, (s.entry j).body.assignment g = some a₀ := by
      by_cases hj : j = i
      · subst hj
        exact Option.ne_none_iff_exists'.1 fun h => nomatch (hnone g h).symm.trans ha
      · exact ⟨a, hother j hj ▸ ha⟩
    obtain ⟨r, hr, rfl⟩ := hs.owner g j a₀ ha₀
    exact ⟨_, hmap hr, hkeep r⟩
  · obtain ⟨r₀, hr₀, rfl⟩ := hback hr
    rw [hkeep]
    by_cases hi : r₀.slot = i
    · rw [if_pos hi, hi]
      exact hrun g r₀ hr₀ hi
    · rw [if_neg hi, hother _ hi]
      exact hs.runs g r₀ hr₀
  · obtain ⟨r₀, hr₀, rfl⟩ := hback hr
    obtain ⟨r₁, hr₁, rfl⟩ := hback hr'
    rw [hkeep, hkeep] at hsame
    have hold := hs.inStep g g' r₀ r₁ hr₀ hr₁ hsame
    rw [hsame]
    split
    · exact hstep r₀ r₁ hold
    · exact hold

/-- The record that gives the count of a group is one of its generators. -/
theorem State.groupRecord_some {s : State} {i : Slot} {r : Running} (h : s.groupRecord i = some r) :
    ∃ g : GenIx, s.generators[g] = .running r ∧ r.slot = i := by
  obtain ⟨g, -, hg⟩ := List.exists_of_findSome?_eq_some h
  exact ⟨g, (Generator.recordFor_eq_some_iff _ _ _).1 hg⟩

theorem State.groupRecord_none {s : State} {i : Slot} (h : s.groupRecord i = none) (g : GenIx) {r : Running}
    (hr : s.generators[g] = .running r) : r.slot ≠ i := by
  intro hslot
  have := List.findSome?_eq_none_iff.1 h g (List.mem_finRange g)
  rw [(Generator.recordFor_eq_some_iff _ _ _).2 ⟨hr, hslot⟩] at this
  nomatch this

/-- A count that is not the wrap's stays below the period of each generator of the group (R117, R120). -/
theorem GeneratorsAgree.advance {s : State} (hs : GeneratorsAgree s) (i : Slot) (hwrap : s.atWrap i = false) :
    GeneratorsAgree (s.mapGroup i Running.advanced) := by
  refine hs.mapGroup i Running.advanced rfl (fun _ _ => rfl) (fun _ => rfl) (fun _ h => h) (fun g r hr hi => ?_)
    fun r r' h => ⟨congrArg (· + 1) h.count, h.prescale, rfl⟩
  obtain ⟨hassigned, hrange⟩ := hs.runs g r hr
  refine ⟨hi ▸ hassigned, ?_, hrange.prescale, nofun⟩
  unfold State.atWrap at hwrap
  split at hwrap
  · next hnone => exact absurd hi (State.groupRecord_none hnone g hr)
  · next r' hr' =>
    obtain ⟨g', hg', hi'⟩ := State.groupRecord_some hr'
    have hcount := (hs.inStep g g' r r' hr hg' (hi.trans hi'.symm)).count
    have hperiod : r.period = r'.period := by
      have h := (hs.runs g' r' hg').1
      rw [hi'] at h
      exact (EntryBody.assignment_group (hi ▸ hassigned) h).2
    have hlt := of_decide_eq_false hwrap
    change r.count + 1 < r.period
    omega

theorem GeneratorsAgree.wrapped {s : State} (hs : GeneratorsAgree s) (i : Slot) :
    GeneratorsAgree (s.mapGroup i Running.wrapped) := by
  refine hs.mapGroup i Running.wrapped rfl (fun _ _ => rfl) (fun _ => rfl) (fun _ h => h) (fun g r hr hi => ?_)
    fun r r' h => ⟨rfl, rfl, rfl⟩
  obtain ⟨hassigned, hcount, hprescale, -⟩ := hs.runs g r hr
  exact ⟨hi ▸ hassigned, Nat.lt_of_le_of_lt (Nat.zero_le _) hcount, Nat.lt_of_le_of_lt (Nat.zero_le _) hprescale, nofun⟩

/-- A place in the group's two lists (R23): the pair at it, and the high count that another setting has there. -/
theorem lookup_highs {gs : List GenIx} {ls : List Line} {hs hs' : List Nat} {g : GenIx} {l : Line} {n : Nat}
    (hgs : gs.Nodup) (hls : ls.Nodup) (hlen : hs'.length = ls.length)
    (h : (gs.zip (ls.zip hs)).lookup g = some (l, n)) :
    ∃ n', (ls.zip hs').lookup l = some n' ∧ (gs.zip (ls.zip hs')).lookup g = some (l, n') := by
  obtain ⟨k, hk, hget⟩ := List.getElem_of_mem (mem_of_lookup h)
  simp only [List.length_zip] at hk
  simp only [List.getElem_zip, Prod.mk.injEq] at hget
  obtain ⟨hgk, hlk, -⟩ := hget
  have hk' : k < hs'.length := by omega
  have hg? : gs[k]? = some g := by rw [List.getElem?_eq_getElem (by omega), hgk]
  have hl? : ls[k]? = some l := by rw [List.getElem?_eq_getElem (by omega), hlk]
  have hn? : hs'[k]? = some hs'[k] := List.getElem?_eq_getElem hk'
  refine ⟨hs'[k], lookup_zip_of_getElem ls hls hs' k l _ hl? hn?, lookup_zip_of_getElem gs hgs _ k g _ hg? ?_⟩
  rw [List.getElem?_zip_eq_some]
  exact ⟨hl?, hn?⟩

/-- The lines of a HELD lease's pulse group are different. -/
theorem pulseLines_nodup {configs : LineConfigs} (h : (configs.map Prod.fst).Nodup) : (pulseLines configs).Nodup :=
  (List.filter_sublist.map _).nodup h

/-- The wrap that applies an update gives each generator and the lease's setting the same new numbers (R124). -/
theorem GeneratorsAgree.updated {s : State} (hs : GeneratorsAgree s) (hrecord : RecordLaw s) {i : Slot} {cl : Claim} {h : Held}
    {p : PulseGroup} {u : PulseUpdate} (hbody : (s.entry i).body = .held cl h) (hp : h.pulse = some p)
    (hu : p.update = some u) : GeneratorsAgree (s.applyUpdate i cl h p u) := by
  have hwell := hrecord i
  rw [hbody] at hwell
  obtain ⟨hlines, hconfigs, hpulse, hgroup, -⟩ := (recordWell_held_iff cl h).1 hwell
  have hpwell := hgroup p hp
  rw [hp] at hpulse
  obtain ⟨-, -, -, holdlen, -⟩ := (PulseSetting.well_iff _ _).1 (setting_well_of_pulseWell hpulse)
  simp only [PulseGroup.well, hu, Bool.and_eq_true, decide_eq_true_eq] at hpwell
  obtain ⟨⟨-, hnodup⟩, hsetting⟩ := hpwell
  obtain ⟨hdivider, hperiod, -, hlen, -⟩ := (PulseSetting.well_iff _ _).1 hsetting
  have hls := pulseLines_nodup (configs_keys_nodup hlines hconfigs)
  have hentry (j : Slot) : (s.applyUpdate i cl h p u).entry j =
      (s.setBody i (.held cl { h with pulse := some { p with setting := u.setting, update := none } })).entry j := rfl
  have hold (g : GenIx) := EntryBody.assignment_held (cl := cl) hp g
  have hnew (g : GenIx) : ((s.applyUpdate i cl h p u).entry i).body.assignment g =
      ((p.generators.zip ((pulseLines h.configs).zip u.setting.highs)).lookup g).map fun lh =>
        ⟨lh.1, u.setting.divider, u.setting.period, lh.2⟩ := by
    rw [hentry, State.entry_setBody, if_pos rfl]
    exact EntryBody.assignment_held (cl := cl) (h := { h with pulse := some { p with setting := u.setting, update := none } })
      rfl g
  refine hs.mapGroup i (Running.updated h.configs u.setting) rfl (fun j hj => ?_) (fun _ => rfl) (fun g hg => ?_)
    (fun g r hr hi => ?_) fun _ _ _ => ⟨rfl, rfl, rfl⟩
  · rw [hentry, State.entry_setBody, if_neg hj]
  · rw [hbody, hold, Option.map_eq_none_iff] at hg
    rw [hnew, Option.map_eq_none_iff, Option.eq_none_iff_forall_ne_some]
    rintro ⟨l, n⟩ hl
    obtain ⟨_, -, hlookup⟩ := lookup_highs hnodup hls holdlen hl
    nomatch hg.symm.trans hlookup
  · obtain ⟨hassigned, -⟩ := hs.runs g r hr
    rw [hi, hbody, hold] at hassigned
    obtain ⟨⟨l, n⟩, hl, heq⟩ := Option.map_eq_some_iff.1 hassigned
    obtain ⟨n', hhigh, hlookup⟩ := lookup_highs hnodup hls hlen hl
    have hline : l = r.line := congrArg Assignment.line heq
    subst hline
    refine ⟨?_, Nat.lt_of_lt_of_le Nat.zero_lt_two hperiod, isDivider_pos hdivider, nofun⟩
    rw [hnew, hlookup]
    simp [Running.assigned, Running.updated, highFor, hhigh]

theorem GeneratorsAgree.wrap {s : State} (hs : GeneratorsAgree s) (hrecord : RecordLaw s) (i : Slot) :
    GeneratorsAgree (s.wrapGroup i) := by
  unfold State.wrapGroup
  split
  · next cl h g u hb =>
    obtain ⟨hbody, hg, hu⟩ := EntryBody.pendingUpdate_some hb
    exact hs.updated hrecord hbody hg hu
  · exact hs.wrapped i

/-! ## Every part -/

theorem GeneratorsAgree.lease {row : Instr} {s t : State} (hs : GeneratorsAgree s) (hrecord : RecordLaw s)
    (h : LeasePart row s t) : GeneratorsAgree t := by
  have hwell {i : Slot} {cl : Claim} {h : Held} (hbody : (s.entry i).body = .held cl h) :
      (EntryBody.held cl h).recordWell = true := hbody ▸ hrecord i
  cases h with
  | retire i =>
    by_cases hfree : (s.entry i).body = .free
    · rwa [State.retire, if_pos hfree]
    · refine hs.undone i (fun g => ?_) (fun g => ?_) fun j hj => by rw [State.entry_retire, if_neg fun h => hj h.1]
      · rw [State.retire, if_neg hfree]
        exact hs.undoEntry_generator i g
      · rw [State.entry_retire, if_pos ⟨rfl, hfree⟩]
        rfl
  | entomb i r =>
    refine hs.undone i (hs.undoEntry_generator i) (fun g => ?_) fun j hj => by rw [State.entry_entomb, if_neg hj]
    rw [State.entry_entomb, if_pos rfl]
    cases (s.entry i).body <;> rfl
  | grant older i cl w hbody hgrant =>
    exact hs.grant hrecord (.mk older i cl _ _ _ _ (.inr rfl) hgrant (hbody ▸ .waiting cl w))
  | acquire c tag body r i hrow hsent hrequest hquota hfree hgrant =>
    exact hs.grant hrecord (.mk s.waitList i _ _ _ _ s (.inl rfl) hgrant (hfree ▸ .acquire c body r hrequest))
  | queue c tag body r i hrow hsent hrequest hquota hfree =>
    exact hs.same (.of_entry i _ _ rfl (s.entry_queueRequest i · c r) (by rw [hfree]; rfl))
  | renew i cl h rest t hbody =>
    exact hs.same (.of_held hbody (s.entry_setBody i · _) rfl (by cases t <;> rfl) (by cases t <;> rfl))
  | setWatch i cl h rest filter ps hbody => exact hs.same (.of_held hbody (s.entry_setBody i · _) rfl rfl rfl)
  | clearWatch i cl h hbody => exact hs.same (.of_held hbody (s.entry_setBody i · _) rfl rfl rfl)
  | setPulse i cl h g rest r hbody hgroup =>
    exact hs.same (.of_held hbody (s.entry_setBody i · _) rfl rfl (by rw [hgroup]; rfl))
  | reconfigure i cl h rest ps hbody hkind hpairs _ hpulse =>
    obtain ⟨-, hmodes⟩ := reconfigurePairs_ok hpairs
    exact hs.same (.of_held hbody (s.entry_reconfigureLease i · cl h ps) rfl
      (pulseLines_reconfigured (hwell hbody) hmodes hpulse) rfl)
  | writeLevels i cl h rest ps hbody =>
    exact hs.same (.of_held hbody (s.entry_reconfigureLease i · cl h _) rfl (pulseLines_leveled ps (hwell hbody)) rfl)
  | convert r => exact hs.same (s.requestConversion_sameGroups r)
  | collectLease c i =>
    refine hs.same (.of_entry i _ _ rfl (s.entry_fetchLease c i ·) ?_)
    split
    · cases (s.entry i).body <;> rfl
    · rfl
  | countTerm i cl h hbody =>
    refine hs.same (.of_held hbody (s.entry_countTerm i · cl h) ?_ rfl rfl)
    unfold State.countTerm State.postIfDue
    dsimp only
    split <;> rfl
  | countWait i cl w wl hbody =>
    exact hs.same (.of_entry i _ _ rfl (s.entry_countWait i · cl w wl) (by rw [hbody]; rfl))
  | sample samples =>
    refine hs.same ⟨rfl, fun i => ?_⟩
    rw [State.entry_takeSample]
    cases (s.entry i).body <;> rfl
  | advance i _ hwrap => exact hs.advance i hwrap
  | wrap i => exact hs.wrap hrecord i
  | complete => exact hs.same (s.completeRequest_sameGroups _)
  | _ => exact hs.same (.of_entries rfl rfl)

/-- A period moves the prescale positions of a group alike (R117). -/
theorem GeneratorsAgree.afterPeriod {s : State} (hs : GeneratorsAgree s) (hdue : s.someDue = false) :
    GeneratorsAgree s.afterPeriod := by
  have hgen (g : GenIx) : s.afterPeriod.generators[g] = s.generators[g].afterPeriod := tabulate_getElem _ g
  have hcounting {g : GenIx} {r : Running} (hr : s.generators[g] = .running r) : r.counting = false := by
    simp only [State.someDue, Bool.or_eq_false_iff, List.any_eq_false] at hdue
    obtain ⟨⟨⟨-, hcount⟩, -⟩, -⟩ := hdue
    have := hcount g (List.mem_finRange g)
    rw [hr] at this
    exact Bool.eq_false_iff.2 this
  have hback {g : GenIx} {r : Running} (h : s.afterPeriod.generators[g] = .running r) :
      ∃ r₀, s.generators[g] = .running r₀ ∧ r = r₀.afterPeriod := by
    rw [hgen] at h
    cases hg : s.generators[g] with
    | free => rw [hg] at h; nomatch h
    | running r₀ =>
      rw [hg] at h
      exact ⟨r₀, rfl, (Generator.running.inj h).symm⟩
  have hsame (r : Running) : r.afterPeriod.slot = r.slot ∧ r.afterPeriod.assigned = r.assigned ∧
      r.afterPeriod.count = r.count ∧ r.afterPeriod.period = r.period ∧ r.afterPeriod.divider = r.divider := by
    obtain ⟨-, h⟩ | ⟨-, h⟩ := r.afterPeriod_cases <;> rw [h] <;> exact ⟨rfl, rfl, rfl, rfl, rfl⟩
  refine ⟨fun g i a ha => ?_, fun g r hr => ?_, fun g g' r r' hr hr' hslot => ?_⟩
  · obtain ⟨r, hr, rfl⟩ := hs.owner g i a ha
    exact ⟨r.afterPeriod, by rw [hgen, hr]; rfl, (hsame r).1⟩
  · obtain ⟨r₀, hr₀, rfl⟩ := hback hr
    obtain ⟨hassigned, hcount, hprescale, -⟩ := hs.runs g r₀ hr₀
    obtain ⟨hslot, hassign, hcount', hperiod', hdivider'⟩ := hsame r₀
    refine ⟨by rw [hslot, hassign]; exact hassigned, by rw [hcount', hperiod']; exact hcount, ?_, fun hc => ?_⟩
    · obtain ⟨hlt, h⟩ | ⟨-, h⟩ := r₀.afterPeriod_cases <;> rw [h]
      · exact hlt
      · exact Nat.lt_of_le_of_lt (Nat.zero_le _) hprescale
    · obtain ⟨-, h⟩ | ⟨-, h⟩ := r₀.afterPeriod_cases
      · rw [h] at hc
        exact absurd ((hcounting hr₀).symm.trans hc) nofun
      · rw [h]
  · obtain ⟨r₀, hr₀, rfl⟩ := hback hr
    obtain ⟨r₁, hr₁, rfl⟩ := hback hr'
    rw [(hsame r₀).1, (hsame r₁).1] at hslot
    obtain ⟨hcount, hprescale, hcounting⟩ := hs.inStep g g' r₀ r₁ hr₀ hr₁ hslot
    have h₀ := (hs.runs g r₀ hr₀).1
    rw [hslot] at h₀
    have hdivider : r₀.divider = r₁.divider := (EntryBody.assignment_group h₀ (hs.runs g' r₁ hr₁).1).1
    unfold Running.afterPeriod
    rw [hprescale, hdivider]
    split
    · exact ⟨hcount, rfl, hcounting⟩
    · exact ⟨hcount, rfl, rfl⟩

/-- Well formed records, and generators that run for their leases. -/
structure GroupsLaw (s : State) : Prop where
  record : RecordLaw s
  agree : GeneratorsAgree s

theorem GroupsLaw.part {row : Instr} {s t : State} (h : EventPart row s t) (hs : GroupsLaw s) : GroupsLaw t := by
  refine ⟨hs.record.part h, ?_⟩
  cases h with
  | side h => exact hs.agree.same (.of_entries (by rw [h.leases]) (by rw [h.leases]))
  | lease h => exact hs.agree.lease hs.record h
  | clear p cause =>
    have hfree (i : Slot) : ((s.cleared p cause).entry i).body = .free := by simp [State.entry, State.cleared, State.reset]
    have hstopped (g : GenIx) : (s.cleared p cause).generators[g] = .free := by simp [State.cleared, State.reset]
    exact ⟨fun g i a ha => (by rw [hfree] at ha; nomatch ha), fun g r hr => (by rw [hstopped] at hr; nomatch hr),
      fun g _ r _ hr => (by rw [hstopped] at hr; nomatch hr)⟩

/-- Settles O53: with well formed records, each part of an event and each period keeps every generator with its lease
(`GeneratorsAgree.lease`, `GeneratorsAgree.afterPeriod`). -/
theorem generatorsFollowTheirLeases : Obligations.GeneratorsFollowTheirLeases := by
  unfold Obligations.GeneratorsFollowTheirLeases
  intro s t hrecord hgen h
  have ht : GroupsLaw t := step_keeps (P := GroupsLaw) (fun _ _ hs => ⟨hs.record, hs.agree.same (.of_entries rfl rfl)⟩)
    (fun _ _ hdue hs => ⟨hs.record, hs.agree.afterPeriod hdue⟩) (fun _ _ _ h hs => hs.part h)
    ⟨hrecord, (generatorLaw_iff s).1 hgen⟩ h
  exact (generatorLaw_iff t).2 ht.agree

end Sys2Proof.Machine
end

section
/-!
PROOF. The converter, its queue and the leases agree (O54). What the law reads of an entry is its conversion state, the lines of a
lease with a request, and its result; of the request in flight, what `InFlight.core` keeps. The start of the next request sees
no request in flight, so that it is proved from a law of the queue alone (`Startable`).
-/

namespace Sys2Proof.Machine

/-! ## What the law reads -/

/-- Of the request in flight the law reads the request, the samples done, their sum and the discard mark. -/
def InFlight.core (f : InFlight) : Request × Nat × Nat × Bool := (f.request, f.done, f.sum, f.discard)

theorem InFlight.core_inj {f f' : InFlight} (h : f.core = f'.core) :
    f.request = f'.request ∧ f.done = f'.done ∧ f.sum = f'.sum ∧ f.discard = f'.discard := by
  simpa only [InFlight.core, Prod.mk.injEq] using h

/-- An entry's body with the same conversion, if it has one, and a result that is well formed if the old one was. -/
structure EntryBody.SameConversion (b b' : EntryBody) : Prop where
  conv : ∀ v, v ≠ ConvState.none → (b'.convState = some v ↔ b.convState = some v)
  claims : ∀ v, v ≠ ConvState.none → b.convState = some v → ∀ l, b.claims l = true → b'.claims l = true
  result : b.resultWell = true → b'.resultWell = true

theorem EntryBody.SameConversion.refl (b : EntryBody) : b.SameConversion b :=
  ⟨fun _ _ => Iff.rfl, fun _ _ _ _ h => h, id⟩

theorem EntryBody.SameConversion.of_eq {b b' : EntryBody} (hconv : b'.convState = b.convState)
    (hclaims : ∀ l, b'.claims l = b.claims l) (hresult : b'.resultWell = b.resultWell) : b.SameConversion b' :=
  ⟨fun _ _ => by rw [hconv], fun _ _ _ l h => by rw [hclaims, h], fun h => by rw [hresult, h]⟩

/-- A body without a conversion state becomes one without a request and without a result. -/
theorem EntryBody.SameConversion.of_none {b b' : EntryBody} (hb : b.convState = none)
    (hb' : b'.convState = none ∨ b'.convState = some .none) (hresult : b'.result = none) : b.SameConversion b' := by
  refine ⟨fun v hv => ?_, fun v _ h => (by rw [hb] at h; nomatch h), fun _ => by rw [EntryBody.resultWell, hresult]⟩
  rw [hb]
  obtain h | h := hb' <;> rw [h]
  simp [Ne.symm hv]

/-- The converter's requests, and the conversion of each entry, are as before. -/
structure State.SameConversions (s t : State) : Prop where
  queue : t.convQueue = s.convQueue
  flight : t.inFlight.map InFlight.core = s.inFlight.map InFlight.core
  body : ∀ i : Slot, (s.entry i).body.SameConversion (t.entry i).body

theorem State.requestWell_iff (s : State) (v : ConvState) (r : Request) :
    s.requestWell v r = true ↔
      (s.entry r.slot).body.convState = some v ∧ (s.entry r.slot).body.claims r.line = true ∧ r.samples ∈ [1, 2, 4, 8] := by
  simp [State.requestWell, and_assoc]

theorem State.inFlightWell_iff (s : State) (f : InFlight) :
    s.inFlightWell f = true ↔ f.request.samples ∈ [1, 2, 4, 8] ∧ f.done < f.request.samples ∧ f.sum ≤ 1023 * f.done ∧
      (f.discard = true ∨ s.requestWell .inFlight f.request = true) := by
  simp [State.inFlightWell, and_assoc]

theorem State.conversionFound_iff (s : State) (i : Slot) :
    s.conversionFound i = true ↔
      ((s.entry i).body.convState = some .queued → i ∈ s.convQueue.map Request.slot) ∧
        ((s.entry i).body.convState = some .inFlight →
          ∃ f, s.inFlight = some f ∧ f.request.slot = i ∧ f.discard = false) := by
  unfold State.conversionFound
  cases (s.entry i).body.convState with
  | none => simp
  | some v => cases v <;> simp [Option.any_eq_true]

theorem State.requestWell_of_same {s t : State} {v : ConvState} (hv : v ≠ .none) {r : Request}
    (h : (s.entry r.slot).body.SameConversion (t.entry r.slot).body) (hr : s.requestWell v r = true) :
    t.requestWell v r = true := by
  obtain ⟨hconv, hclaims, hsamples⟩ := (s.requestWell_iff v r).1 hr
  exact (t.requestWell_iff v r).2 ⟨(h.conv v hv).2 hconv, h.claims v hv hconv _ hclaims, hsamples⟩

/-- The request in flight after a part that keeps what the law reads of it. -/
theorem exists_flight_of_core {s t : State} (h : t.inFlight.map InFlight.core = s.inFlight.map InFlight.core) {f : InFlight}
    (hf : t.inFlight = some f) : ∃ f', s.inFlight = some f' ∧ f.core = f'.core := by
  rw [hf, Option.map_some] at h
  obtain ⟨f', hf', hcore⟩ := Option.map_eq_some_iff.1 h.symm
  exact ⟨f', hf', hcore.symm⟩

theorem ConverterLaw.same {s t : State} (hs : ConverterLaw s) (h : s.SameConversions t) : ConverterLaw t := by
  obtain ⟨hidle, hlen, hnodup, hqueued, hflight, hentries⟩ := hs
  refine ⟨fun hnone => ?_, by rwa [h.queue], by rwa [h.queue], fun r hr => ?_, fun f hf => ?_, fun i => ⟨?_, ?_⟩⟩
  · rw [h.queue]
    exact hidle (Option.map_eq_none_iff.1 (h.flight.symm.trans (congrArg _ hnone)))
  · exact State.requestWell_of_same (v := .queued) nofun (h.body _) (hqueued r (h.queue ▸ hr))
  · obtain ⟨f', hf', hcore⟩ := exists_flight_of_core h.flight hf
    obtain ⟨hrequest, hdone, hsum, hdiscard⟩ := InFlight.core_inj hcore
    obtain ⟨hsamples, hlt, hle, hmark⟩ := (s.inFlightWell_iff f').1 (hflight f' hf')
    rw [t.inFlightWell_iff, hrequest, hdone, hsum, hdiscard]
    exact ⟨hsamples, hlt, hle, hmark.imp_right (State.requestWell_of_same (v := .inFlight) nofun (h.body _))⟩
  · obtain ⟨hq, hf⟩ := (s.conversionFound_iff i).1 (hentries i).1
    refine (t.conversionFound_iff i).2 ⟨fun hconv => ?_, fun hconv => ?_⟩
    · rw [h.queue]
      exact hq (((h.body i).conv .queued nofun).1 hconv)
    · obtain ⟨f, hf, hslot, hdiscard⟩ := hf (((h.body i).conv .inFlight nofun).1 hconv)
      obtain ⟨f', hf', hcore⟩ := exists_flight_of_core h.flight.symm hf
      obtain ⟨hrequest, -, -, hmark⟩ := InFlight.core_inj hcore
      exact ⟨f', hf', hrequest ▸ hslot, hmark ▸ hdiscard⟩
  · exact (h.body i).result (hentries i).2

theorem State.SameConversions.of_entries {s t : State} (hqueue : t.convQueue = s.convQueue)
    (hflight : t.inFlight.map InFlight.core = s.inFlight.map InFlight.core) (hent : t.entries = s.entries) :
    s.SameConversions t :=
  ⟨hqueue, hflight, fun i => by unfold State.entry; rw [hent]; exact .refl _⟩

theorem State.SameConversions.of_entry {s t : State} (i : Slot) (g : Fin 8) (b : EntryBody)
    (ht : ∀ j, t.entry j = if j = i then ⟨g, b⟩ else s.entry j) (hqueue : t.convQueue = s.convQueue)
    (hflight : t.inFlight.map InFlight.core = s.inFlight.map InFlight.core) (hb : (s.entry i).body.SameConversion b) :
    s.SameConversions t := by
  refine ⟨hqueue, hflight, fun j => ?_⟩
  rw [ht]
  split
  · next hj => exact hj ▸ hb
  · exact .refl _

/-- A HELD entry is written again with its lines, its conversion state and its result. -/
theorem State.SameConversions.of_held {s t : State} {i : Slot} {cl cl' : Claim} {h h' : Held}
    (hbody : (s.entry i).body = .held cl h)
    (ht : ∀ j, t.entry j = if j = i then ⟨(s.entry i).generation, .held cl' h'⟩ else s.entry j)
    (hqueue : t.convQueue = s.convQueue) (hflight : t.inFlight.map InFlight.core = s.inFlight.map InFlight.core)
    (hlines : cl'.lines = cl.lines) (hconv : h'.conv = h.conv) (hresult : h'.result = h.result) : s.SameConversions t := by
  refine .of_entry i _ _ ht hqueue hflight (hbody ▸ .of_eq ?_ (fun l => ?_) ?_)
  · rw [EntryBody.convState, EntryBody.convState, hconv]
  · simp [EntryBody.claims, EntryBody.claim, hlines]
  · simp [EntryBody.resultWell, EntryBody.result, EntryBody.claims, EntryBody.claim, hlines, hresult]

theorem State.configureLines_core (s : State) (ps : LineConfigs) :
    (s.configureLines ps).inFlight.map InFlight.core = s.inFlight.map InFlight.core := by
  rw [State.configureLines_request, Option.map_map]
  rfl

theorem State.grantLease_core (s : State) (i : Slot) (cl : Claim) (configs : LineConfigs) (p : Option PulseSetting)
    (due : Option Nat) : (s.grantLease i cl configs p due).inFlight.map InFlight.core = s.inFlight.map InFlight.core := by
  cases p <;> exact State.configureLines_core _ configs

@[simp] theorem State.grantLease_convQueue (s : State) (i : Slot) (cl : Claim) (configs : LineConfigs)
    (p : Option PulseSetting) (due : Option Nat) : (s.grantLease i cl configs p due).convQueue = s.convQueue := by
  cases p <;> rfl

/-! ## The end of an entry -/

/-- The entry in a slot loses its conversion: a queued request is withdrawn, and one in flight has the discard mark (R141). -/
theorem ConverterLaw.undone {s t : State} (hs : ConverterLaw s) (i : Slot)
    (hqueue : t.convQueue = s.convQueue.filter fun r => r.slot ≠ i)
    (hflight : t.inFlight.map InFlight.core = s.inFlight.map fun f =>
      (f.request, f.done, f.sum, f.discard || decide (f.request.slot = i)))
    (hi : (t.entry i).body.convState = none) (hresult : (t.entry i).body.resultWell = true)
    (hother : ∀ j, j ≠ i → t.entry j = s.entry j) : ConverterLaw t := by
  obtain ⟨hidle, hlen, hnodup, hqueued, hwell, hentries⟩ := hs
  have hsub : t.convQueue.Sublist s.convQueue := hqueue ▸ List.filter_sublist
  have hrequest {v : ConvState} {r : Request} (hr : r.slot ≠ i) (h : s.requestWell v r = true) : t.requestWell v r = true := by
    rw [State.requestWell_iff, hother _ hr]
    exact (s.requestWell_iff v r).1 h
  refine ⟨fun hnone => ?_, hsub.length_le.trans hlen, (hsub.map _).nodup hnodup, fun r hr => ?_, fun f hf => ?_, fun j => ?_⟩
  · rw [hnone, Option.map_none, eq_comm, Option.map_eq_none_iff] at hflight
    rw [hqueue, hidle hflight]
    rfl
  · rw [hqueue, List.mem_filter, decide_eq_true_eq] at hr
    exact hrequest hr.2 (hqueued r hr.1)
  · rw [hf, Option.map_some] at hflight
    obtain ⟨f', hf', hcore⟩ := Option.map_eq_some_iff.1 hflight.symm
    simp only [InFlight.core, Prod.mk.injEq] at hcore
    obtain ⟨hreq, hdone, hsum, hdiscard⟩ := hcore
    obtain ⟨hsamples, hlt, hle, hmark⟩ := (s.inFlightWell_iff f').1 (hwell f' hf')
    rw [t.inFlightWell_iff, ← hreq, ← hdone, ← hsum, ← hdiscard]
    refine ⟨hsamples, hlt, hle, ?_⟩
    by_cases hslot : f'.request.slot = i
    · exact .inl (by simp [hslot])
    · exact hmark.imp (fun h => by simp [h]) (hrequest hslot)
  · by_cases hj : j = i
    · subst hj
      exact ⟨(t.conversionFound_iff j).2 ⟨fun h => (by rw [hi] at h; nomatch h), fun h => (by rw [hi] at h; nomatch h)⟩, hresult⟩
    · obtain ⟨hfound, hres⟩ := hentries j
      obtain ⟨hq, hf⟩ := (s.conversionFound_iff j).1 hfound
      rw [t.conversionFound_iff, hother j hj]
      refine ⟨⟨fun hconv => ?_, fun hconv => ?_⟩, hres⟩
      · obtain ⟨r, hr, rfl⟩ := List.mem_map.1 (hq hconv)
        refine List.mem_map_of_mem ?_
        rw [hqueue, List.mem_filter, decide_eq_true_eq]
        exact ⟨hr, hj⟩
      · obtain ⟨f, hsome, rfl, hdiscard⟩ := hf hconv
        rw [hsome, Option.map_some] at hflight
        obtain ⟨f', hf', hcore⟩ := Option.map_eq_some_iff.1 hflight
        simp only [InFlight.core, Prod.mk.injEq] at hcore
        obtain ⟨hreq, -, -, hmark⟩ := hcore
        exact ⟨f', hf', by rw [hreq], by rw [hmark, hdiscard]; simpa using hj⟩

theorem EntryBody.convState_held (cl : Claim) (h : Held) : (EntryBody.held cl h).convState = some h.conv := rfl

/-- What the end of an entry does to the converter's requests: whatever the state of the entry, those of its slot are withdrawn
or marked (R141). -/
theorem ConverterLaw.undoEntry_requests {s : State} (hs : ConverterLaw s) (i : Slot) :
    ((s.undoEntry i).convQueue = s.convQueue.filter fun r => r.slot ≠ i) ∧
      (s.undoEntry i).inFlight.map InFlight.core = s.inFlight.map fun f =>
        (f.request, f.done, f.sum, f.discard || decide (f.request.slot = i)) := by
  obtain ⟨-, -, -, hqueued, hwell, -⟩ := hs
  have hnot {v : ConvState} (hv : (s.entry i).body.convState ≠ some v) {r : Request} (hr : s.requestWell v r = true) :
      r.slot ≠ i := by
    rintro rfl
    exact hv ((s.requestWell_iff v r).1 hr).1
  /- Without a queued request, and without a request in flight. -/
  have hqueue (h : (s.entry i).body.convState ≠ some .queued) : s.convQueue = s.convQueue.filter fun r => r.slot ≠ i := by
    rw [eq_comm, List.filter_eq_self]
    exact fun r hr => decide_eq_true (hnot h (hqueued r hr))
  have hflight (h : (s.entry i).body.convState ≠ some .inFlight) : s.inFlight.map InFlight.core = s.inFlight.map fun f =>
      (f.request, f.done, f.sum, f.discard || decide (f.request.slot = i)) := by
    refine Option.map_congr fun f hf => ?_
    obtain ⟨-, -, -, hmark⟩ := (s.inFlightWell_iff f).1 (hwell f hf)
    obtain hd | hr := hmark
    · simp [InFlight.core, hd]
    · simp [InFlight.core, hnot h hr]
  unfold State.undoEntry
  cases hb : (s.entry i).body with
  | held cl h =>
    rw [hb, EntryBody.convState_held] at hqueue hflight
    have hlines : (s.returnLines cl).convQueue = s.convQueue ∧
        (s.returnLines cl).inFlight.map InFlight.core = s.inFlight.map InFlight.core := by
      unfold State.returnLines
      split
      · exact ⟨rfl, s.configureLines_core _⟩
      · exact ⟨rfl, rfl⟩
    obtain ⟨hlq, hlf⟩ := hlines
    dsimp only [State.endEffects]
    cases hconv : h.conv with
    | none => exact ⟨hlq.trans (hqueue (by rw [hconv]; nofun)), hlf.trans (hflight (by rw [hconv]; nofun))⟩
    | queued =>
      refine ⟨?_, hlf.trans (hflight (by rw [hconv]; nofun))⟩
      change (s.returnLines cl).convQueue.filter _ = _
      rw [hlq]
    | inFlight =>
      refine ⟨hlq.trans (hqueue (by rw [hconv]; nofun)), ?_⟩
      change ((s.returnLines cl).inFlight.map fun r => if r.request.slot = i then { r with discard := true } else r).map _ = _
      have hmark : (InFlight.core ∘ fun r : InFlight => if r.request.slot = i then { r with discard := true } else r) =
          (fun c : Request × Nat × Nat × Bool => (c.1, c.2.1, c.2.2.1, c.2.2.2 || decide (c.1.slot = i))) ∘ InFlight.core := by
        funext f
        by_cases hf : f.request.slot = i <;> simp [InFlight.core, hf]
      rw [Option.map_map, hmark, ← Option.map_map, hlf, Option.map_map]
      rfl
  | _ => exact ⟨hqueue (by rw [hb]; nofun), hflight (by rw [hb]; nofun)⟩

/-- A tombstone keeps a well formed result. -/
theorem EntryBody.resultWell_tombstone {b : EntryBody} (h : b.resultWell = true) (r : EndReason) :
    (b.tombstone r).resultWell = true := by
  cases b with
  | waiting => rfl
  | _ => exact h

/-! ## The start of the next request -/

/-- What the start of the next request finds: a queue of HELD leases' requests, and no lease with a request in flight. -/
structure Startable (q : List Request) (s : State) : Prop where
  length : q.length ≤ 8
  nodup : (q.map Request.slot).Nodup
  queued : ∀ r ∈ q, s.requestWell .queued r = true
  found : ∀ i : Slot, (s.entry i).body.convState = some .queued → i ∈ q.map Request.slot
  idle : ∀ i : Slot, (s.entry i).body.convState ≠ some .inFlight
  result : ∀ i : Slot, (s.entry i).body.resultWell = true

theorem EntryBody.convState_withConv {b : EntryBody} {v : ConvState} (h : b.convState = some v) (v' : ConvState) :
    (b.withConv v').convState = some v' := by
  cases b with
  | held => rfl
  | _ => nomatch h

theorem EntryBody.claims_withConv (b : EntryBody) (v : ConvState) (l : Line) : (b.withConv v).claims l = b.claims l := by
  cases b <;> rfl

theorem EntryBody.resultWell_withConv (b : EntryBody) (v : ConvState) : (b.withConv v).resultWell = b.resultWell := by
  cases b <;> rfl

theorem EntryBody.withResult_convState (b : EntryBody) (r : ConvResult) :
    (b.withResult r).convState = none ∨ (b.withResult r).convState = some .none := by
  cases b <;> simp [EntryBody.withResult, EntryBody.convState]

/-- A result for one of an entry's lines, with a value up to 1023 or MODE_LOST (R140). -/
theorem EntryBody.resultWell_withResult {b : EntryBody} (hb : b.resultWell = true) {r : ConvResult}
    (hline : b.claims r.line = true)
    (hvalue : r.status = .modeLost ∧ r.value = none ∨ r.status ≠ .modeLost ∧ ∃ v, r.value = some v ∧ v ≤ 1023) :
    (b.withResult r).resultWell = true := by
  cases b with
  | held cl h =>
    have hline' : r.line ∈ cl.lines := List.contains_iff_mem.1 hline
    obtain ⟨hs, hv⟩ | ⟨hs, v, hv, hle⟩ := hvalue
    · simp [EntryBody.withResult, EntryBody.resultWell, EntryBody.result, EntryBody.claims, EntryBody.claim, hline', hs, hv]
    · simp [EntryBody.withResult, EntryBody.resultWell, EntryBody.result, EntryBody.claims, EntryBody.claim, hline', hs, hv, hle]
  | _ => exact hb

/-- A request is delivered, and the rest of the queue is as before. -/
theorem Startable.delivered {q : List Request} {s : State} (i : Slot) (l : Line) (value : Option Nat) (st : ResultStatus)
    (hlength : q.length ≤ 8) (hnodup : (q.map Request.slot).Nodup) (hqueued : ∀ r ∈ q, s.requestWell .queued r = true)
    (hfound : ∀ j, j ≠ i → (s.entry j).body.convState = some .queued → j ∈ q.map Request.slot)
    (hidle : ∀ j, j ≠ i → (s.entry j).body.convState ≠ some .inFlight) (hi : i ∉ q.map Request.slot)
    (hresult : ∀ j, (s.entry j).body.resultWell = true) (hline : (s.entry i).body.claims l = true)
    (hvalue : st = .modeLost ∧ value = none ∨ st ≠ .modeLost ∧ ∃ v, value = some v ∧ v ≤ 1023) :
    Startable q (s.deliver i l value st) := by
  have hentry (j : Slot) := s.entry_deliver i j l value st
  have hnone : ((s.deliver i l value st).entry i).body.convState = none ∨
      ((s.deliver i l value st).entry i).body.convState = some .none := by
    rw [hentry, if_pos rfl]
    exact EntryBody.withResult_convState _ _
  refine ⟨hlength, hnodup, fun r hr => ?_, fun j hj => ?_, fun j => ?_, fun j => ?_⟩
  · have hne : r.slot ≠ i := fun h => hi (h ▸ List.mem_map_of_mem hr)
    rw [State.requestWell_iff, hentry, if_neg hne]
    exact (s.requestWell_iff _ r).1 (hqueued r hr)
  · by_cases hji : j = i
    · subst hji
      obtain h | h := hnone <;> rw [h] at hj <;> nomatch hj
    · rw [hentry, if_neg hji] at hj
      exact hfound j hji hj
  · by_cases hji : j = i
    · subst hji
      obtain h | h := hnone <;> rw [h] <;> nofun
    · rw [hentry, if_neg hji]
      exact hidle j hji
  · rw [hentry]
    split
    · exact EntryBody.resultWell_withResult (hresult i) hline hvalue
    · exact hresult j

theorem startNext_law (q : List Request) : ∀ s : State, Startable q s → ConverterLaw (startNext q s) := by
  induction q with
  | nil =>
    intro s hs
    refine ⟨fun _ => rfl, Nat.zero_le _, List.nodup_nil, nofun, nofun, fun i => ⟨?_, hs.result i⟩⟩
    exact (State.conversionFound_iff ..).2 ⟨fun h => absurd (hs.found i h) List.not_mem_nil, fun h => absurd h (hs.idle i)⟩
  | cons r rest ih =>
    intro s hs
    obtain ⟨hr, hnodup⟩ := List.nodup_cons.1 hs.nodup
    obtain ⟨hconv, hclaims, hsamples⟩ := (s.requestWell_iff _ r).1 (hs.queued r (.head _))
    have hlen : rest.length ≤ 8 := Nat.le_trans (Nat.le_succ _) hs.length
    have hfound (j : Slot) (hj : j ≠ r.slot) (h : (s.entry j).body.convState = some .queued) : j ∈ rest.map Request.slot :=
      (List.mem_cons.1 (hs.found j h)).resolve_left hj
    unfold startNext
    split
    · have hentry (j : Slot) := s.entry_setBody r.slot j ((s.entry r.slot).body.withConv .inFlight)
      have hstarted := EntryBody.convState_withConv hconv .inFlight
      refine ⟨nofun, hlen, hnodup, fun r' hr' => ?_, fun f hf => ?_, fun j => ?_⟩
      · have hne : r'.slot ≠ r.slot := fun h => hr (h ▸ List.mem_map_of_mem hr')
        refine (State.requestWell_iff ..).2 ?_
        change ((s.setBody _ _).entry r'.slot).body.convState = _ ∧ ((s.setBody _ _).entry r'.slot).body.claims _ = _ ∧ _
        rw [hentry, if_neg hne]
        exact (s.requestWell_iff _ r').1 (hs.queued r' (.tail _ hr'))
      · obtain rfl := Option.some.inj hf
        refine (State.inFlightWell_iff ..).2 ⟨hsamples, ?_, Nat.le_refl _, .inr ((State.requestWell_iff ..).2 ?_)⟩
        · change 0 < r.samples
          simp only [List.mem_cons, List.not_mem_nil, or_false] at hsamples
          omega
        · change ((s.setBody _ _).entry r.slot).body.convState = _ ∧ ((s.setBody _ _).entry r.slot).body.claims _ = _ ∧ _
          rw [hentry, if_pos rfl]
          exact ⟨hstarted, (EntryBody.claims_withConv ..).trans hclaims, hsamples⟩
      · rw [State.conversionFound_iff]
        change ((((s.setBody _ _).entry j).body.convState = _ → _) ∧ (((s.setBody _ _).entry j).body.convState = _ → _)) ∧
          ((s.setBody _ _).entry j).body.resultWell = _
        rw [hentry]
        split
        · next hj =>
          refine ⟨⟨fun h => ?_, fun _ => ⟨s.started r, rfl, hj.symm, rfl⟩⟩, (EntryBody.resultWell_withConv ..).trans (hs.result _)⟩
          nomatch hstarted.symm.trans h
        · next hj => exact ⟨⟨hfound j hj, fun h => absurd h (hs.idle j)⟩, hs.result j⟩
    · exact ih _ (.delivered r.slot r.line none .modeLost hlen hnodup (fun r' hr' => hs.queued r' (.tail _ hr')) hfound
        (fun j _ => hs.idle j) hr hs.result hclaims (.inl ⟨rfl, rfl⟩))

/-! ## Requests and samples -/

theorem codeOf_le (held reference : Int) : codeOf held reference ≤ 1023 := Nat.min_le_left _ _

/-- The last sample of a request has been added: its result is delivered, and the next request starts (R140). -/
theorem ConverterLaw.complete {s : State} (hs : ConverterLaw s) {f : InFlight} (held vdd : Int) (hf : s.inFlight = some f)
    (hlast : f.request.samples ≤ f.done + 1) : ConverterLaw (s.completeRequest (f.afterSample held vdd)) := by
  obtain ⟨-, hlen, hnodup, hqueued, hflight, hentries⟩ := hs
  obtain ⟨hsamples, hlt, hle, hmark⟩ := (s.inFlightWell_iff f).1 (hflight f hf)
  have hfound (i : Slot) := (s.conversionFound_iff i).1 (hentries i).1
  have hresult (i : Slot) := (hentries i).2
  /- Only the lease of the request in flight is IN_FLIGHT. -/
  have hsole (i : Slot) (h : (s.entry i).body.convState = some .inFlight) : f.request.slot = i ∧ f.discard = false := by
    obtain ⟨f', hf', hslot, hdiscard⟩ := (hfound i).2 h
    obtain rfl := Option.some.inj (hf.symm.trans hf')
    exact ⟨hslot, hdiscard⟩
  unfold State.completeRequest
  split
  · next hdiscard =>
    refine startNext_law _ s ⟨hlen, hnodup, hqueued, fun i => (hfound i).1, fun i h => ?_, hresult⟩
    exact absurd ((hsole i h).2.symm.trans hdiscard) nofun
  · next hdiscard =>
    obtain ⟨hconv, hclaims, -⟩ := (s.requestWell_iff _ _).1 (hmark.resolve_left hdiscard)
    refine startNext_law _ _ (.delivered f.request.slot f.request.line _ _ hlen hnodup hqueued (fun i _ => (hfound i).1)
      (fun i hi h => hi (hsole i h).1.symm) (fun hmem => ?_) hresult hclaims (.inr ⟨by split <;> nofun, _, rfl, ?_⟩))
    · obtain ⟨r, hr, hslot⟩ := List.mem_map.1 hmem
      have hqueue := ((s.requestWell_iff _ r).1 (hqueued r hr)).1
      rw [hslot, hconv] at hqueue
      nomatch hqueue
    · have hcode := codeOf_le held (referenceVoltage f.reference vdd)
      refine Nat.div_le_of_le_mul ?_
      change f.sum + codeOf held (referenceVoltage f.reference vdd) ≤ f.request.samples * 1023
      have hdone : f.request.samples = f.done + 1 := by omega
      omega

/-- The request stands at the end of the queue, and its lease is QUEUED. -/
def State.joinQueue (s : State) (r : Request) : State :=
  { s.setBody r.slot ((s.entry r.slot).body.withConv .queued) with convQueue := s.convQueue ++ [r] }

theorem State.requestConversion_eq (s : State) (r : Request) :
    s.requestConversion r =
      match s.inFlight with | none => startNext (s.convQueue ++ [r]) (s.joinQueue r) | some _ => s.joinQueue r := by
  unfold State.requestConversion
  cases s.inFlight <;> rfl

/-- A lease without a request gets one, at the end of the queue or, from an IDLE converter, at once (R135). -/
theorem ConverterLaw.convert {s : State} (hs : ConverterLaw s) {r : Request} {cl : Claim} {h : Held}
    (hbody : (s.entry r.slot).body = .held cl h) (hline : r.line ∈ cl.lines) (hconv : h.conv = .none)
    (hqueue : s.convQueue.length < 8) (hsamples : r.samples ∈ [1, 2, 4, 8]) : ConverterLaw (s.requestConversion r) := by
  obtain ⟨hidle, -, hnodup, hqueued, hflight, hentries⟩ := hs
  have hfound (i : Slot) := (s.conversionFound_iff i).1 (hentries i).1
  have hold : (s.entry r.slot).body.convState = some .none := by rw [hbody, EntryBody.convState_held, hconv]
  have hnew : ((s.entry r.slot).body.withConv .queued).convState = some .queued := EntryBody.convState_withConv hold _
  have hentry (j : Slot) : (s.joinQueue r).entry j = if j = r.slot then
      ⟨(s.entry r.slot).generation, (s.entry r.slot).body.withConv .queued⟩ else s.entry j := s.entry_setBody r.slot j _
  have hfresh : r.slot ∉ s.convQueue.map Request.slot := fun hmem => by
    obtain ⟨r', hr', hslot⟩ := List.mem_map.1 hmem
    have := ((s.requestWell_iff _ r').1 (hqueued r' hr')).1
    rw [hslot, hold] at this
    nomatch this
  have hkept {v : ConvState} (hv : v ≠ .none) {r' : Request} (hr' : s.requestWell v r' = true) : (s.joinQueue r).requestWell v r' = true := by
    have hne : r'.slot ≠ r.slot := fun hslot => by
      have := ((s.requestWell_iff _ r').1 hr').1
      rw [hslot, hold] at this
      exact hv (Option.some.inj this).symm
    rw [State.requestWell_iff, hentry, if_neg hne]
    exact (s.requestWell_iff _ r').1 hr'
  have hlast : (s.joinQueue r).requestWell .queued r = true := by
    rw [State.requestWell_iff, hentry, if_pos rfl]
    refine ⟨hnew, (EntryBody.claims_withConv ..).trans ?_, hsamples⟩
    rw [hbody]
    exact List.contains_iff_mem.2 hline
  have hlen : (s.convQueue ++ [r]).length ≤ 8 := by
    rw [List.length_append]
    exact hqueue
  have hslots : ((s.convQueue ++ [r]).map Request.slot).Nodup := by
    rw [List.map_append, List.map_singleton, List.nodup_append]
    exact ⟨hnodup, List.nodup_singleton _, fun i hi j hj => by rw [List.mem_singleton.1 hj]; rintro rfl; exact hfresh hi⟩
  have hall (r' : Request) (hr' : r' ∈ s.convQueue ++ [r]) : (s.joinQueue r).requestWell .queued r' = true := by
    obtain h | h := List.mem_append.1 hr'
    · exact hkept (v := .queued) nofun (hqueued r' h)
    · rw [List.mem_singleton.1 h]
      exact hlast
  have hwaits (i : Slot) (h : ((s.joinQueue r).entry i).body.convState = some .queued) : i ∈ (s.convQueue ++ [r]).map Request.slot := by
    rw [List.map_append, List.mem_append]
    by_cases hi : i = r.slot
    · exact .inr (by rw [hi]; exact List.mem_singleton_self _)
    · rw [hentry, if_neg hi] at h
      exact .inl ((hfound i).1 h)
  have hflying (i : Slot) (h : ((s.joinQueue r).entry i).body.convState = some .inFlight) : (s.entry i).body.convState = some .inFlight := by
    rw [hentry] at h
    split at h
    · nomatch hnew.symm.trans h
    · exact h
  have hresult (i : Slot) : ((s.joinQueue r).entry i).body.resultWell = true := by
    rw [hentry]
    split
    · exact (EntryBody.resultWell_withConv ..).trans (hentries _).2
    · exact (hentries i).2
  rw [State.requestConversion_eq]
  split
  · next hnone =>
    refine startNext_law _ _ ⟨hlen, hslots, hall, hwaits, fun i h => ?_, hresult⟩
    obtain ⟨f, hf, -⟩ := (hfound i).2 (hflying i h)
    nomatch hnone.symm.trans hf
  · next f hf =>
    refine ⟨fun h => absurd (hf.symm.trans h) nofun, hlen, hslots, hall, fun f' hf' => ?_, fun i => ⟨?_, hresult i⟩⟩
    · obtain ⟨hsamples, hlt, hle, hmark⟩ := (s.inFlightWell_iff f').1 (hflight f' hf')
      exact (State.inFlightWell_iff ..).2 ⟨hsamples, hlt, hle, hmark.imp_right (hkept (v := .inFlight) nofun)⟩
    · exact (State.conversionFound_iff ..).2 ⟨hwaits i, fun h => (hfound i).2 (hflying i h)⟩

/-- A sample that is not the last of its request is added (R138). -/
theorem ConverterLaw.nextSample {s : State} (hs : ConverterLaw s) {f : InFlight} (held vdd : Int) (hf : s.inFlight = some f)
    (hleft : f.done + 1 < f.request.samples) :
    ConverterLaw { s with inFlight := some (f.afterSample held vdd) } := by
  obtain ⟨-, hlen, hnodup, hqueued, hflight, hentries⟩ := hs
  obtain ⟨hsamples, hlt, hle, hmark⟩ := (s.inFlightWell_iff f).1 (hflight f hf)
  refine ⟨nofun, hlen, hnodup, hqueued, fun f' hf' => ?_, fun i => ⟨?_, (hentries i).2⟩⟩
  · obtain rfl := Option.some.inj hf'
    have hcode := codeOf_le held (referenceVoltage f.reference vdd)
    refine (State.inFlightWell_iff ..).2 ⟨hsamples, hleft, ?_, hmark⟩
    change f.sum + codeOf held (referenceVoltage f.reference vdd) ≤ 1023 * (f.done + 1)
    omega
  · obtain ⟨hq, hfly⟩ := (s.conversionFound_iff i).1 (hentries i).1
    refine (State.conversionFound_iff ..).2 ⟨hq, fun h => ?_⟩
    obtain ⟨f', hf', hslot, hdiscard⟩ := hfly h
    obtain rfl := Option.some.inj (hf.symm.trans hf')
    exact ⟨_, rfl, hslot, hdiscard⟩

/-! ## Every part -/

/-- An OVERRUN mark is no part of what the law reads of a result. -/
theorem EntryBody.sameConversion_overrunCleared (b : EntryBody) : b.SameConversion b.overrunCleared := by
  cases b with
  | held cl h =>
    refine .of_eq rfl (fun _ => rfl) ?_
    cases hr : h.result <;>
      simp [EntryBody.overrunCleared, EntryBody.resultWell, EntryBody.result, hr, ConvResult.cleared, EntryBody.claims,
        EntryBody.claim]
  | ended cl t =>
    refine .of_eq rfl (fun _ => rfl) ?_
    cases hr : t.result <;>
      simp [EntryBody.overrunCleared, EntryBody.resultWell, EntryBody.result, hr, ConvResult.cleared, EntryBody.claims,
        EntryBody.claim]
  | _ => exact .refl _

theorem Requests.sameConversion {b : EntryBody} {cl : Claim} {configs : LineConfigs} {pulse : Option PulseSetting}
    {due : Option Nat} (h : Requests b cl configs pulse due) (gs : List GenIx) :
    b.SameConversion (.held cl (heldAtGrant cl configs pulse gs due)) := by
  cases h <;> exact .of_none rfl (.inr rfl) rfl

theorem ConverterLaw.grant {s t : State} (hs : ConverterLaw s) (h : GrantPart s t) : ConverterLaw t := by
  obtain ⟨older, i, cl, configs, pulse, due, u, hu, hgrant, hrequest⟩ := h
  have hqueue : u.convQueue = s.convQueue := by obtain rfl | rfl := hu <;> rfl
  have hflight : u.inFlight = s.inFlight := by obtain rfl | rfl := hu <;> rfl
  have hentry (j : Slot) : u.entry j = s.entry j := by obtain rfl | rfl := hu <;> rfl
  refine hs.same (.of_entry i (s.entry i).generation _ (fun j => ?_) ((State.grantLease_convQueue ..).trans hqueue)
    ((State.grantLease_core ..).trans (by rw [hflight])) (hrequest.sameConversion (u.assigned (pulseLines configs))))
  rw [State.entry_grantLease, hentry, hentry]

theorem ConverterLaw.lease {row : Instr} {s t : State} (hs : ConverterLaw s) (h : LeasePart row s t) : ConverterLaw t := by
  cases h with
  | retire i =>
    by_cases hfree : (s.entry i).body = .free
    · rwa [State.retire, if_pos hfree]
    · obtain ⟨hqueue, hflight⟩ := hs.undoEntry_requests i
      have hframe : s.retire i = ((s.undoEntry i).setEntry i ⟨(s.entry i).generation + 1, .free⟩).discardNotices i := by
        rw [State.retire, if_neg hfree]
      have hi : ((s.retire i).entry i).body = .free := by rw [State.entry_retire, if_pos ⟨rfl, hfree⟩]
      exact hs.undone i (hframe ▸ hqueue) (hframe ▸ hflight) (by rw [hi]; rfl) (by rw [hi]; rfl)
        fun j hj => by rw [State.entry_retire, if_neg fun h => hj h.1]
  | entomb i r =>
    obtain ⟨hqueue, hflight⟩ := hs.undoEntry_requests i
    have hi : ((s.entomb i r).entry i).body = (s.entry i).body.tombstone r := by rw [State.entry_entomb, if_pos rfl]
    refine hs.undone i hqueue hflight ?_ ?_ fun j hj => by rw [State.entry_entomb, if_neg hj]
    · rw [hi]
      cases (s.entry i).body <;> rfl
    · rw [hi]
      obtain ⟨-, -, -, -, -, hentries⟩ := hs
      exact EntryBody.resultWell_tombstone (hentries i).2 r
  | grant older i cl w hbody hgrant =>
    exact hs.grant (.mk older i cl _ _ _ _ (.inr rfl) hgrant (hbody ▸ .waiting cl w))
  | acquire c tag body r i hrow hsent hrequest hquota hfree hgrant =>
    exact hs.grant (.mk s.waitList i _ _ _ _ s (.inl rfl) hgrant (hfree ▸ .acquire c body r hrequest))
  | queue c tag body r i hrow hsent hrequest hquota hfree =>
    exact hs.same (.of_entry i _ _ (s.entry_queueRequest i · c r) rfl rfl (hfree ▸ .of_none rfl (.inl rfl) rfl))
  | renew i cl h rest t hbody =>
    exact hs.same (.of_held hbody (s.entry_setBody i · _) rfl rfl (by cases t <;> rfl) (by cases t <;> rfl) (by cases t <;> rfl))
  | setWatch i cl h rest filter ps hbody => exact hs.same (.of_held hbody (s.entry_setBody i · _) rfl rfl rfl rfl rfl)
  | clearWatch i cl h hbody => exact hs.same (.of_held hbody (s.entry_setBody i · _) rfl rfl rfl rfl rfl)
  | setPulse i cl h g rest r hbody => exact hs.same (.of_held hbody (s.entry_setBody i · _) rfl rfl rfl rfl rfl)
  | reconfigure i cl h rest ps hbody =>
    exact hs.same (.of_held hbody (s.entry_reconfigureLease i · cl h ps) rfl (State.configureLines_core _ ps) rfl rfl rfl)
  | writeLevels i cl h rest ps hbody =>
    exact hs.same (.of_held hbody (s.entry_reconfigureLease i · cl h _) rfl (State.configureLines_core _ _) rfl rfl rfl)
  | convert r cl h hbody hline _ hconv hqueue hsamples => exact hs.convert hbody hline hconv hqueue hsamples
  | collectLease c i =>
    refine hs.same (.of_entry i _ _ (s.entry_fetchLease c i ·) rfl rfl ?_)
    split
    · exact EntryBody.sameConversion_overrunCleared _
    · exact .refl _
  | storeIdlePlan c body ps => exact hs.same (.of_entries rfl (State.configureLines_core _ _) rfl)
  | countTerm i cl h hbody =>
    have hframe : (s.countTerm i cl h).convQueue = s.convQueue ∧ (s.countTerm i cl h).inFlight = s.inFlight := by
      unfold State.countTerm State.postIfDue
      dsimp only
      split <;> exact ⟨rfl, rfl⟩
    exact hs.same (.of_held hbody (s.entry_countTerm i · cl h) hframe.1 (by rw [hframe.2]) rfl rfl rfl)
  | countWait i cl w wl hbody =>
    exact hs.same (.of_entry i _ _ (s.entry_countWait i · cl w wl) rfl rfl (hbody ▸ .of_none rfl (.inl rfl) rfl))
  | sample samples =>
    refine hs.same ⟨rfl, rfl, fun i => ?_⟩
    rw [State.entry_takeSample]
    cases (s.entry i).body <;> exact .of_eq rfl (fun _ => rfl) rfl
  | wrap i =>
    have hframe : (s.wrapGroup i).convQueue = s.convQueue ∧ (s.wrapGroup i).inFlight = s.inFlight := by
      unfold State.wrapGroup
      split <;> exact ⟨rfl, rfl⟩
    refine hs.same ⟨hframe.1, by rw [hframe.2], fun j => ?_⟩
    obtain h | ⟨cl, h, g, u, hbody, -, -, rfl, hentry⟩ := s.entry_wrapGroup i j
    · rw [h]
      exact .refl _
    · rw [hentry, hbody]
      exact .of_eq rfl (fun _ => rfl) rfl
  | advance => exact hs.same (.of_entries rfl rfl rfl)
  | hold f v hf => exact hs.same (.of_entries rfl (by rw [hf]; rfl) rfl)
  | nextSample f held vdd hf hleft => exact hs.nextSample held vdd hf hleft
  | complete f held vdd hf hlast => exact hs.complete held vdd hf hlast

theorem ConverterLaw.part {row : Instr} {s t : State} (h : EventPart row s t) (hs : ConverterLaw s) : ConverterLaw t := by
  cases h with
  | side h => exact hs.same (.of_entries (by rw [h.leases]) (by rw [h.leases]) (by rw [h.leases]))
  | lease h => exact hs.lease h
  | clear p cause =>
    have hfree (i : Slot) : ((s.cleared p cause).entry i).body = .free := by simp [State.entry, State.cleared, State.reset]
    refine ⟨fun _ => rfl, Nat.zero_le _, List.nodup_nil, nofun, nofun, fun i => ⟨?_, by rw [hfree]; rfl⟩⟩
    exact (State.conversionFound_iff ..).2 ⟨fun h => (by rw [hfree] at h; nomatch h), fun h => (by rw [hfree] at h; nomatch h)⟩

theorem ConverterLaw.afterPeriod {s : State} (hs : ConverterLaw s) : ConverterLaw s.afterPeriod :=
  hs.same (.of_entries rfl (by
    change (s.inFlight.map _).map _ = _
    rw [Option.map_map]
    rfl) rfl)

/-- Settles O54: each part of an event keeps what the converter's law reads (`ConverterLaw.same`), or ends, starts or delivers a
request (`ConverterLaw.undone`, `ConverterLaw.convert`, `ConverterLaw.complete`). -/
theorem converterStaysConsistent : Obligations.ConverterStaysConsistent := by
  unfold Obligations.ConverterStaysConsistent
  exact fun s t hs h => step_keeps (P := ConverterLaw) (fun _ _ hs => hs) (fun _ _ _ hs => hs.afterPeriod)
    (fun _ _ _ h hs => hs.part h) hs h

end Sys2Proof.Machine
end

section
/-!
PROOF. Pending notices suit the state of their entry (O55): what each operation posts and discards, and that every reason is posted
on an entry that can have it pending (Table 8-2).
-/

namespace Sys2Proof.Machine

/-! ## Notices after the operations -/

theorem State.noticesOf_retire (s : State) (i j : Slot) :
    (s.retire i).noticesOf j = if j = i ∧ (s.entry i).body ≠ .free then PendingSet.empty else s.noticesOf j := by
  unfold State.retire
  split
  · next hfree => rw [if_neg fun h => h.2 hfree]
  · next hfree =>
    rw [State.discardNotices, State.noticesOf_setNotices, State.noticesOf_setEntry, State.noticesOf_undoEntry]
    by_cases hj : j = i
    · rw [if_pos hj, if_pos ⟨hj, hfree⟩]
    · rw [if_neg hj, if_neg fun h => hj h.1]

theorem State.noticesOf_entomb (s : State) (i j : Slot) (r : EndReason) :
    (s.entomb i r).noticesOf j = if j = i then { s.noticesOf i with ended := some r } else s.noticesOf j := by
  unfold State.entomb State.postEnded
  simp

theorem State.noticesOf_grantLease (s : State) (i j : Slot) (cl : Claim) (configs : LineConfigs) (p : Option PulseSetting)
    (due : Option Nat) :
    (s.grantLease i cl configs p due).noticesOf j = if j = i then { s.noticesOf i with granted := true } else s.noticesOf j := by
  cases p <;> exact State.noticesOf_setNotices ..

theorem State.noticesOf_deliver (s : State) (i j : Slot) (l : Line) (value : Option Nat) (st : ResultStatus) :
    (s.deliver i l value st).noticesOf j = if j = i then { s.noticesOf i with converted := true } else s.noticesOf j :=
  State.noticesOf_setNotices ..

theorem State.noticesOf_fetchLease (s : State) (c : Client) (i j : Slot) :
    (s.fetchLease c i).noticesOf j = if j = i then PendingSet.empty else s.noticesOf j :=
  State.noticesOf_setNotices ..

theorem State.noticesOf_countTerm (s : State) (i j : Slot) (cl : Claim) (h : Held) :
    (s.countTerm i cl h).noticesOf j =
      if j = i ∧ h.due = some (h.remaining - 1) then { s.noticesOf i with due := true } else s.noticesOf j := by
  unfold State.countTerm State.postIfDue
  dsimp only
  rw [State.noticesOf_settleAttention]
  split
  · next hdue => simp [State.postDue, hdue]
  · next hdue => simp [hdue]

theorem State.noticesOf_takeSample (s : State) (samples : Vector Level 24) (i : Slot) :
    (s.takeSample samples).noticesOf i = ((s.entry i).body.edges samples).foldl PendingSet.withEdge (s.noticesOf i) :=
  tabulate_getElem _ i

theorem State.noticesOf_wrapGroup (s : State) (i j : Slot) :
    (s.wrapGroup i).noticesOf j =
      if j = i ∧ (s.entry i).body.pendingUpdate.isSome then { s.noticesOf i with pulseApplied := true } else s.noticesOf j := by
  unfold State.wrapGroup
  split
  · next hu =>
    have happly (cl : Claim) (h : Held) (g : PulseGroup) (u : PulseUpdate) : (s.applyUpdate i cl h g u).noticesOf j =
        if j = i then { s.noticesOf i with pulseApplied := true } else s.noticesOf j := State.noticesOf_setNotices ..
    rw [happly, hu]
    simp
  · next hnone =>
    rw [hnone, if_neg fun h => nomatch h.2]
    rfl

/-! ## EDGE payloads -/

theorem inSet_ext {a b : LineSet} (h : ∀ l : Line, inSet l a = inSet l b) : a = b :=
  BitVec.eq_of_getLsbD_eq fun i hi => h ⟨i, hi⟩

/-- The lines of a set are among those of a list. -/
theorem and_not_lineSet_eq_zero_iff (m : LineSet) (ls : List Line) :
    m &&& ~~~lineSet ls = 0 ↔ ∀ l, inSet l m = true → l ∈ ls := by
  constructor
  · intro h l hl
    have hbit := congrArg (inSet l) h
    rw [inSet_and, inSet_not, inSet_lineSet, hl, inSet_zero, Bool.true_and, Bool.not_eq_false'] at hbit
    exact of_decide_eq_true hbit
  · intro h
    refine inSet_ext fun l => ?_
    rw [inSet_and, inSet_not, inSet_lineSet, inSet_zero]
    cases hl : inSet l m with
    | false => rfl
    | true => simp [h l hl]

theorem EdgePayload.well_iff (ls : List Line) (e : EdgePayload) :
    e.well ls = true ↔ e.changed ≠ 0 ∧ (∀ l, inSet l e.changed = true → l ∈ ls) ∧ 1 ≤ e.count ∧ e.count ≤ 255 := by
  unfold EdgePayload.well
  simp only [Bool.and_eq_true, decide_eq_true_eq, and_not_lineSet_eq_zero_iff, and_assoc]

theorem edgeAfter_well {ls : List Line} {p : Option EdgePayload} (hp : p.all (EdgePayload.well ls) = true) {l : Line}
    (hl : l ∈ ls) : (edgeAfter p l).well ls = true := by
  have hne {m : LineSet} (h : inSet l m = true) : m ≠ 0 := fun h0 => by
    rw [h0, inSet_zero] at h
    nomatch h
  rw [EdgePayload.well_iff]
  cases p with
  | none =>
    refine ⟨hne (by simp [edgeAfter, inSet_lineBit]), fun k hk => ?_, Nat.le_refl 1, Nat.le_add_left 1 254⟩
    rw [edgeAfter, inSet_lineBit, decide_eq_true_eq] at hk
    exact hk ▸ hl
  | some e =>
    obtain ⟨-, hsub, hpos, hmax⟩ := (EdgePayload.well_iff ls e).1 hp
    refine ⟨hne (by simp [edgeAfter, inSet_lineBit]), fun k hk => ?_, ?_, ?_⟩
    · rw [edgeAfter, inSet_or, Bool.or_eq_true, inSet_lineBit, decide_eq_true_eq] at hk
      exact hk.elim (hsub k) fun h => h ▸ hl
    · exact Nat.le_min.2 ⟨by decide, Nat.succ_le_succ (Nat.zero_le _)⟩
    · exact Nat.min_le_left _ _

/-! ## What each entry may have pending -/

theorem EntryBody.noticesWell_empty (b : EntryBody) : b.noticesWell PendingSet.empty = true := by cases b <;> rfl

/-- What an entry that is not HELD or a tombstone has pending. -/
theorem EntryBody.noticesWell_none {b : EntryBody} {p : PendingSet} (h : b.noticesWell p = true)
    (hb : b = .free ∨ ∃ cl w, b = .waiting cl w) : p = PendingSet.empty := by
  obtain rfl | ⟨cl, w, rfl⟩ := hb <;> exact of_decide_eq_true h

theorem noticesWell_held_iff (cl : Claim) (h : Held) (p : PendingSet) :
    (EntryBody.held cl h).noticesWell p = true ↔
      p.ended = none ∧ (p.converted = true → h.result.isSome = true) ∧ (p.pulseApplied = true → h.pulse.isSome = true) ∧
        p.edge.all (EdgePayload.well cl.lines) = true := by
  simp only [EntryBody.noticesWell, Bool.and_eq_true, Bool.or_eq_true, Bool.not_eq_true', Option.isNone_iff_eq_none, and_assoc]
  refine and_congr_right fun _ => and_congr ?_ (and_congr ?_ Iff.rfl)
  · cases p.converted <;> simp
  · cases p.pulseApplied <;> simp

theorem noticesWell_ended_iff (cl : Claim) (t : Tombstone) (p : PendingSet) :
    (EntryBody.ended cl t).noticesWell p = true ↔
      (∀ r, p.ended = some r → r = t.reason) ∧ (p.converted = true → t.result.isSome = true) ∧
        p.edge.all (EdgePayload.well cl.lines) = true := by
  simp only [EntryBody.noticesWell, Bool.and_eq_true, Bool.or_eq_true, Bool.not_eq_true', and_assoc]
  refine and_congr ?_ (and_congr ?_ Iff.rfl)
  · cases p.ended <;> simp
  · cases p.converted <;> simp

/-- A HELD lease that keeps its lines and loses neither result nor pulse group may have the same reasons pending. -/
theorem noticesWell_held_mono {cl cl' : Claim} {h h' : Held} {p : PendingSet} (hlines : cl'.lines = cl.lines)
    (hresult : h.result.isSome = true → h'.result.isSome = true) (hpulse : h.pulse.isSome = true → h'.pulse.isSome = true)
    (hp : (EntryBody.held cl h).noticesWell p = true) : (EntryBody.held cl' h').noticesWell p = true := by
  obtain ⟨hended, hconverted, happlied, hedge⟩ := (noticesWell_held_iff cl h p).1 hp
  exact (noticesWell_held_iff ..).2 ⟨hended, fun h => hresult (hconverted h), fun h => hpulse (happlied h), hlines ▸ hedge⟩

/-! ## Parts -/

theorem NoticeLaw.of_same {s t : State} (hs : NoticeLaw s) (hent : t.entries = s.entries) (hnot : t.notices = s.notices) :
    NoticeLaw t := by
  unfold NoticeLaw State.entry State.noticesOf
  rw [hent, hnot]
  exact hs

/-- One entry and its notices change. -/
theorem NoticeLaw.of_entry {s t : State} (hs : NoticeLaw s) (i : Slot) (hent : ∀ j, j ≠ i → t.entry j = s.entry j)
    (hnot : ∀ j, j ≠ i → t.noticesOf j = s.noticesOf j) (hi : (t.entry i).body.noticesWell (t.noticesOf i) = true) :
    NoticeLaw t := by
  intro j
  by_cases hj : j = i
  · exact hj ▸ hi
  · rw [hent j hj, hnot j hj]
    exact hs j

/-- A HELD entry is written again with its lines, and no notice is posted. -/
theorem NoticeLaw.of_held {s t : State} (hs : NoticeLaw s) {i : Slot} {cl cl' : Claim} {h h' : Held}
    (hbody : (s.entry i).body = .held cl h)
    (hent : ∀ j, t.entry j = if j = i then ⟨(s.entry i).generation, .held cl' h'⟩ else s.entry j)
    (hnot : ∀ j, t.noticesOf j = s.noticesOf j) (hlines : cl'.lines = cl.lines)
    (hresult : h.result.isSome = true → h'.result.isSome = true) (hpulse : h.pulse.isSome = true → h'.pulse.isSome = true) :
    NoticeLaw t := by
  refine hs.of_entry i (fun j hj => by rw [hent, if_neg hj]) (fun j _ => hnot j) ?_
  rw [hent, if_pos rfl, hnot]
  exact noticesWell_held_mono hlines hresult hpulse (hbody ▸ hs i)

/-- A result is delivered to a HELD lease, and CONVERTED is posted (R140). -/
theorem NoticeLaw.deliver {s : State} (hs : NoticeLaw s) {i : Slot} {cl : Claim} {h : Held}
    (hbody : (s.entry i).body = .held cl h) (l : Line) (value : Option Nat) (st : ResultStatus) :
    NoticeLaw (s.deliver i l value st) := by
  refine hs.of_entry i (fun j hj => by rw [State.entry_deliver, if_neg hj]) (fun j hj => by rw [State.noticesOf_deliver, if_neg hj])
    ?_
  have hi := hs i
  rw [hbody, noticesWell_held_iff] at hi
  rw [State.entry_deliver, if_pos rfl, State.noticesOf_deliver, if_pos rfl, hbody]
  obtain ⟨hended, -, happlied, hedge⟩ := hi
  exact (noticesWell_held_iff ..).2 ⟨hended, fun _ => rfl, happlied, hedge⟩

theorem EntryBody.noticesWell_withConv (b : EntryBody) (v : ConvState) (p : PendingSet) :
    (b.withConv v).noticesWell p = b.noticesWell p := by
  cases b <;> rfl

theorem EntryBody.heldClaim_withConv (b : EntryBody) (v : ConvState) : (b.withConv v).heldClaim = b.heldClaim := by
  cases b <;> rfl

theorem EntryBody.heldClaim_withResult (b : EntryBody) (r : ConvResult) : (b.withResult r).heldClaim = b.heldClaim := by
  cases b <;> rfl

theorem EntryBody.heldClaim_isSome {b : EntryBody} (h : b.heldClaim.isSome = true) : ∃ cl hd, b = .held cl hd := by
  cases b with
  | held cl hd => exact ⟨cl, hd, rfl⟩
  | _ => nomatch h

theorem NoticeLaw.startNext (q : List Request) : ∀ {s : State}, NoticeLaw s →
    (∀ r ∈ q, (s.entry r.slot).body.heldClaim.isSome = true) → NoticeLaw (startNext q s) := by
  induction q with
  | nil => exact fun hs _ => hs
  | cons r rest ih =>
    intro s hs hheld
    unfold Machine.startNext
    split
    · refine hs.of_entry r.slot (fun j hj => ?_) (fun _ _ => rfl) ?_
      · exact (s.entry_setBody ..).trans (if_neg hj)
      · change ((s.setBody _ _).entry r.slot).body.noticesWell (s.noticesOf r.slot) = true
        rw [State.entry_setBody, if_pos rfl, EntryBody.noticesWell_withConv]
        exact hs r.slot
    · obtain ⟨cl, h, hbody⟩ := EntryBody.heldClaim_isSome (hheld r (.head _))
      refine ih (hs.deliver hbody _ _ _) fun r' hr' => ?_
      rw [State.entry_deliver]
      split
      · rw [EntryBody.heldClaim_withResult]
        exact hheld r (.head _)
      · exact hheld r' (.tail _ hr')

/-- A request that is well formed is one of a HELD lease (R134). -/
theorem State.heldClaim_of_requestWell {s : State} {v : ConvState} {r : Request} (h : s.requestWell v r = true) :
    (s.entry r.slot).body.heldClaim.isSome = true := by
  obtain ⟨hconv, -⟩ := (s.requestWell_iff v r).1 h
  cases hb : (s.entry r.slot).body with
  | held => rfl
  | _ => rw [hb] at hconv; nomatch hconv

theorem NoticeLaw.complete {s : State} (hs : NoticeLaw s) (hconverter : ConverterLaw s) {f : InFlight} (held vdd : Int)
    (hf : s.inFlight = some f) : NoticeLaw (s.completeRequest (f.afterSample held vdd)) := by
  obtain ⟨-, -, -, hqueued, hflight, -⟩ := hconverter
  have hheld (r : Request) (hr : r ∈ s.convQueue) := State.heldClaim_of_requestWell (hqueued r hr)
  obtain ⟨-, -, -, hmark⟩ := (s.inFlightWell_iff f).1 (hflight f hf)
  unfold State.completeRequest
  split
  · exact hs.startNext _ hheld
  · next hdiscard =>
    obtain ⟨cl, h, hbody⟩ := EntryBody.heldClaim_isSome (State.heldClaim_of_requestWell (hmark.resolve_left hdiscard))
    refine (hs.deliver hbody _ _ _).startNext _ fun r hr => ?_
    rw [State.entry_deliver]
    split
    · rw [EntryBody.heldClaim_withResult, hbody]
      rfl
    · exact hheld r hr

theorem NoticeLaw.convert {s : State} (hs : NoticeLaw s) (hconverter : ConverterLaw s) {r : Request} {cl : Claim} {h : Held}
    (hbody : (s.entry r.slot).body = .held cl h) : NoticeLaw (s.requestConversion r) := by
  obtain ⟨-, -, -, hqueued, -, -⟩ := hconverter
  have hentry (j : Slot) : (s.joinQueue r).entry j = if j = r.slot then
      ⟨(s.entry r.slot).generation, (s.entry r.slot).body.withConv .queued⟩ else s.entry j := s.entry_setBody r.slot j _
  have hjoined : NoticeLaw (s.joinQueue r) := by
    refine hs.of_entry r.slot (fun j hj => by rw [hentry, if_neg hj]) (fun _ _ => rfl) ?_
    rw [hentry, if_pos rfl, EntryBody.noticesWell_withConv]
    exact hs r.slot
  have hclaim (j : Slot) : ((s.joinQueue r).entry j).body.heldClaim = (s.entry j).body.heldClaim := by
    rw [hentry]
    split
    · next hj => rw [hj, EntryBody.heldClaim_withConv]
    · rfl
  rw [State.requestConversion_eq]
  split
  · refine hjoined.startNext _ fun r' hr' => ?_
    rw [hclaim]
    obtain h | h := List.mem_append.1 hr'
    · exact State.heldClaim_of_requestWell (hqueued r' h)
    · rw [List.mem_singleton.1 h, hbody]
      rfl
  · exact hjoined

/-- The entry becomes a tombstone, with ENDED and its reason (R45). -/
theorem EntryBody.noticesWell_tombstone {b : EntryBody} {p : PendingSet} (h : b.noticesWell p = true) {cl : Claim}
    (hlive : b.needLive = .ok cl) (r : EndReason) : (b.tombstone r).noticesWell { p with ended := some r } = true := by
  have hreason : ∀ r', some r = some r' → r' = r := fun r' h => (Option.some.inj h).symm
  cases b with
  | free => nomatch hlive
  | ended => nomatch hlive
  | waiting cl w =>
    obtain rfl := EntryBody.noticesWell_none h (.inr ⟨cl, w, rfl⟩)
    exact (noticesWell_ended_iff ..).2 ⟨hreason, nofun, rfl⟩
  | held cl hd =>
    obtain ⟨-, hconverted, -, hedge⟩ := (noticesWell_held_iff ..).1 h
    exact (noticesWell_ended_iff ..).2 ⟨hreason, hconverted, hedge⟩

/-- GRANTED is posted on a new lease, which has no other reason pending (R71). -/
theorem NoticeLaw.grant {s t : State} (hs : NoticeLaw s) (h : GrantPart s t) : NoticeLaw t := by
  obtain ⟨older, i, cl, configs, pulse, due, u, hu, hgrant, hrequest⟩ := h
  have hentry (j : Slot) : u.entry j = s.entry j := by obtain rfl | rfl := hu <;> rfl
  have hnotices (j : Slot) : u.noticesOf j = s.noticesOf j := by obtain rfl | rfl := hu <;> rfl
  have hempty : s.noticesOf i = PendingSet.empty := by
    refine EntryBody.noticesWell_none (hs i) ?_
    generalize (s.entry i).body = b at hrequest
    cases hrequest with
    | waiting cl w => exact .inr ⟨cl, w, rfl⟩
    | acquire => exact .inl rfl
  refine hs.of_entry i (fun j hj => ?_) (fun j hj => ?_) ?_
  · rw [State.entry_grantLease, if_neg hj, hentry]
  · rw [State.noticesOf_grantLease, if_neg hj, hnotices]
  · rw [State.entry_grantLease, if_pos rfl, State.noticesOf_grantLease, if_pos rfl, hnotices, hempty]
    exact (noticesWell_held_iff ..).2 ⟨rfl, nofun, nofun, rfl⟩

/-- EDGE is posted for lines of the watch, which are lines of the lease (R107). -/
theorem noticesWell_withEdges {cl : Claim} {h : Held} (ls : List Line) (hls : ∀ l ∈ ls, l ∈ cl.lines) : ∀ p : PendingSet,
    (EntryBody.held cl h).noticesWell p = true → (EntryBody.held cl h).noticesWell (ls.foldl PendingSet.withEdge p) = true := by
  induction ls with
  | nil => exact fun _ h => h
  | cons l ls ih =>
    intro p hp
    obtain ⟨hended, hconverted, happlied, hedge⟩ := (noticesWell_held_iff ..).1 hp
    refine ih (fun k hk => hls k (.tail _ hk)) _ ((noticesWell_held_iff ..).2 ⟨hended, hconverted, happlied, ?_⟩)
    exact edgeAfter_well hedge (hls l (.head _))

theorem NoticeLaw.sample {s : State} (hs : NoticeLaw s) (hrecord : RecordLaw s) (samples : Vector Level 24) :
    NoticeLaw (s.takeSample samples) := by
  intro i
  rw [State.entry_takeSample, State.noticesOf_takeSample]
  have hi := hs i
  have hwell := hrecord i
  cases hb : (s.entry i).body with
  | held cl h =>
    rw [hb] at hi hwell
    obtain ⟨-, -, -, -, hwatch⟩ := (recordWell_held_iff cl h).1 hwell
    refine noticesWell_withEdges _ (fun l hl => ?_) _ (noticesWell_held_mono rfl id id hi)
    unfold EntryBody.edges at hl
    split at hl
    · nomatch hl
    · next w hw =>
      obtain ⟨x, hx, rfl⟩ := List.mem_map.1 hl
      have hwell := hwatch w hw
      simp only [Watch.well, Bool.and_eq_true, List.all_eq_true, List.contains_iff_mem] at hwell
      exact (hwell.2 x (List.mem_of_mem_filter hx)).1
  | _ => rwa [hb] at hi

theorem NoticeLaw.wrap {s : State} (hs : NoticeLaw s) (i : Slot) : NoticeLaw (s.wrapGroup i) := by
  intro j
  have hj := hs j
  rw [State.noticesOf_wrapGroup]
  obtain hsame | ⟨cl, h, g, u, hbody, hg, hu, rfl, hentry⟩ := s.entry_wrapGroup i j
  · rw [hsame]
    split
    · next hji =>
      obtain ⟨rfl, hsome⟩ := hji
      obtain ⟨⟨cl, h, g, u⟩, hpending⟩ := Option.isSome_iff_exists.1 hsome
      obtain ⟨hbody, hg, -⟩ := EntryBody.pendingUpdate_some hpending
      rw [hbody, noticesWell_held_iff] at hj ⊢
      obtain ⟨hended, hconverted, -, hedge⟩ := hj
      exact ⟨hended, hconverted, fun _ => by rw [hg]; rfl, hedge⟩
    · exact hj
  · rw [hentry]
    rw [hbody, noticesWell_held_iff] at hj
    obtain ⟨hended, hconverted, -, hedge⟩ := hj
    split
    · exact (noticesWell_held_iff ..).2 ⟨hended, hconverted, fun _ => rfl, hedge⟩
    · exact (noticesWell_held_iff ..).2 ⟨hended, hconverted, fun _ => rfl, hedge⟩

theorem NoticeLaw.lease {row : Instr} {s t : State} (hs : NoticeLaw s) (hrecord : RecordLaw s) (hconverter : ConverterLaw s)
    (h : LeasePart row s t) : NoticeLaw t := by
  cases h with
  | retire i =>
    intro j
    rw [State.entry_retire, State.noticesOf_retire]
    split
    · rfl
    · exact hs j
  | entomb i r cl hlive =>
    refine hs.of_entry i (fun j hj => by rw [State.entry_entomb, if_neg hj]) (fun j hj => by rw [State.noticesOf_entomb, if_neg hj])
      ?_
    rw [State.entry_entomb, if_pos rfl, State.noticesOf_entomb, if_pos rfl]
    exact EntryBody.noticesWell_tombstone (hs i) hlive r
  | grant older i cl w hbody hgrant =>
    exact hs.grant (.mk older i cl _ _ _ _ (.inr rfl) hgrant (hbody ▸ .waiting cl w))
  | acquire c tag body r i hrow hsent hrequest hquota hfree hgrant =>
    exact hs.grant (.mk s.waitList i _ _ _ _ s (.inl rfl) hgrant (hfree ▸ .acquire c body r hrequest))
  | queue c tag body r i hrow hsent hrequest hquota hfree =>
    refine hs.of_entry i (fun j hj => by rw [State.entry_queueRequest, if_neg hj]) (fun _ _ => rfl) ?_
    rw [State.entry_queueRequest, if_pos rfl]
    exact decide_eq_true (EntryBody.noticesWell_none (hs i) (.inl hfree))
  | renew i cl h rest t hbody =>
    exact hs.of_held hbody (s.entry_setBody i · _) (fun _ => rfl) (by cases t <;> rfl) (by cases t <;> exact id)
      (by cases t <;> exact id)
  | setWatch i cl h rest filter ps hbody => exact hs.of_held hbody (s.entry_setBody i · _) (fun _ => rfl) rfl id id
  | clearWatch i cl h hbody => exact hs.of_held hbody (s.entry_setBody i · _) (fun _ => rfl) rfl id id
  | setPulse i cl h g rest r hbody => exact hs.of_held hbody (s.entry_setBody i · _) (fun _ => rfl) rfl id fun _ => rfl
  | reconfigure i cl h rest ps hbody =>
    exact hs.of_held hbody (s.entry_reconfigureLease i · cl h ps) (fun _ => rfl) rfl id id
  | writeLevels i cl h rest ps hbody =>
    exact hs.of_held hbody (s.entry_reconfigureLease i · cl h _) (fun _ => rfl) rfl id id
  | convert r cl h hbody => exact hs.convert hconverter hbody
  | collectLease c i =>
    refine hs.of_entry i (fun j hj => by rw [State.entry_fetchLease, if_neg hj])
      (fun j hj => by rw [State.noticesOf_fetchLease, if_neg hj]) ?_
    rw [State.noticesOf_fetchLease, if_pos rfl]
    exact EntryBody.noticesWell_empty _
  | storeIdlePlan => exact hs.of_same rfl rfl
  | countTerm i cl h hbody =>
    refine hs.of_entry i (fun j hj => by rw [State.entry_countTerm, if_neg hj])
      (fun j hj => by rw [State.noticesOf_countTerm, if_neg fun h => hj h.1]) ?_
    have hi := hs i
    rw [hbody, noticesWell_held_iff] at hi
    rw [State.entry_countTerm, if_pos rfl, State.noticesOf_countTerm, noticesWell_held_iff]
    split <;> exact hi
  | countWait i cl w wl hbody =>
    refine hs.of_entry i (fun j hj => by rw [State.entry_countWait, if_neg hj]) (fun _ _ => rfl) ?_
    rw [State.entry_countWait, if_pos rfl]
    exact decide_eq_true (EntryBody.noticesWell_none (hs i) (.inr ⟨cl, w, hbody⟩))
  | sample samples => exact hs.sample hrecord samples
  | wrap i => exact hs.wrap i
  | complete f held vdd hf => exact hs.complete hconverter held vdd hf
  | _ => exact hs.of_same rfl rfl

/-- Well formed records, a consistent converter and notices that suit their entries. -/
structure NoticesLaw (s : State) : Prop where
  record : RecordLaw s
  converter : ConverterLaw s
  notice : NoticeLaw s

theorem NoticesLaw.part {row : Instr} {s t : State} (h : EventPart row s t) (hs : NoticesLaw s) : NoticesLaw t := by
  refine ⟨hs.record.part h, hs.converter.part h, ?_⟩
  cases h with
  | side h => exact hs.notice.of_same (by rw [h.leases]) (by rw [h.leases])
  | lease h => exact hs.notice.lease hs.record hs.converter h
  | clear p cause =>
    intro i
    have hempty : (s.cleared p cause).noticesOf i = PendingSet.empty := by simp [State.noticesOf, State.cleared, State.reset]
    rw [hempty]
    exact EntryBody.noticesWell_empty _

/-- Settles O55: with well formed records and a consistent converter, every reason is posted on an entry that can have it
pending (`NoticeLaw.lease`). -/
theorem noticesSuitTheirEntries : Obligations.NoticesSuitTheirEntries := by
  unfold Obligations.NoticesSuitTheirEntries
  intro s t hrecord hconverter hnotice h
  have ht : NoticesLaw t := step_keeps (P := NoticesLaw) (fun _ _ hs => ⟨hs.record, hs.converter, hs.notice⟩)
    (fun _ _ _ hs => ⟨hs.record, hs.converter.afterPeriod, hs.notice⟩) (fun _ _ _ h hs => hs.part h)
    ⟨hrecord, hconverter, hnotice⟩ h
  exact ht.notice

end Sys2Proof.Machine
end

section
/-!
PROOF. Between events no waiting entry is grantable (R66, R67). A part of an event that makes nothing easier to grant keeps the
law (`State.Tighter`); the rows whose event may (`mayEnd`) end it with a grant scan, which reaches the law from any exact wait
list (`WaitListLaw.grantScan_settled`).
-/

namespace Sys2Proof.Machine

/-! ## What the arbiter reads -/

/-- The kind and the lines that a HELD lease holds. -/
def EntryBody.holding (b : EntryBody) : Option (Kind × List Line) := b.heldClaim.map fun cl => (cl.kind, cl.lines)

theorem EntryBody.heldConflict_eq (b : EntryBody) (k : Candidate) :
    b.heldConflict k = b.holding.elim false fun x => claimsConflict x.1 x.2 k.kind k.lines := by
  unfold EntryBody.heldConflict EntryBody.holding
  cases b.heldClaim <;> rfl

theorem EntryBody.waitingConflict_eq (b : EntryBody) (k : Candidate) :
    b.waitingConflict k = b.waiter.elim false fun x => claimsConflict x.1.kind x.1.lines k.kind k.lines := by
  cases b <;> rfl

theorem EntryBody.waitingPulses_eq (b : EntryBody) :
    b.waitingPulses = b.waiter.elim false fun x => !(pulseLines x.2.1).isEmpty := by
  cases b <;> rfl

/-- The lines, holders and generators leave the arbiter no more than before. -/
structure State.Scarcer (s t : State) : Prop where
  fences : ∀ l : Line, inSet l s.fences = true → inSet l t.fences = true
  holding : ∀ (i : Slot) x, (s.entry i).body.holding = some x → (t.entry i).body.holding = some x
  generators : ∀ g : GenIx, t.generators[g] = .free → s.generators[g] = .free

/-- What is grantable was grantable before, when there was no less to grant and the older entries waited alike. -/
theorem State.Scarcer.grantable {s t : State} (h : s.Scarcer t) {older : List Slot}
    (hwaiter : ∀ i ∈ older, (t.entry i).body.waiter = (s.entry i).body.waiter) {k : Candidate}
    (hk : t.grantable older k = true) : s.grantable older k = true := by
  obtain ⟨hfenced, hheld, hwaited, hgen⟩ := (t.grantable_iff older k).1 hk
  refine (s.grantable_iff older k).2 ⟨?_, ?_, ?_, ?_⟩
  · simp only [State.unfencedFor, List.all_eq_true, Bool.not_eq_true'] at hfenced ⊢
    exact fun l hl => Bool.eq_false_iff.2 fun hin => Bool.eq_false_iff.1 (hfenced l hl) (h.fences l hin)
  · rw [State.unheldFor_iff] at hheld ⊢
    intro i
    rw [EntryBody.heldConflict_eq]
    cases hi : (s.entry i).body.holding with
    | none => rfl
    | some x =>
      have := hheld i
      rwa [EntryBody.heldConflict_eq, h.holding i x hi] at this
  · simp only [State.unwaitedFor, List.all_eq_true, EntryBody.waitingConflict_eq] at hwaited ⊢
    exact fun i hi => hwaiter i hi ▸ hwaited i hi
  · simp only [State.generatorsFor, Bool.or_eq_true, Bool.and_eq_true, decide_eq_true_eq, List.all_eq_true,
      EntryBody.waitingPulses_eq] at hgen ⊢
    refine hgen.imp_right fun ⟨hcount, hpulses⟩ => ⟨Nat.le_trans hcount ?_, fun i hi => hwaiter i hi ▸ hpulses i hi⟩
    refine (t.freeGenerators_nodup.subperm fun g hg => ?_).length_le
    exact (s.mem_freeGenerators g).2 (h.generators g ((t.mem_freeGenerators g).1 hg))

theorem State.Scarcer.trans {s t u : State} (h₁ : s.Scarcer t) (h₂ : t.Scarcer u) : s.Scarcer u :=
  ⟨fun l hl => h₂.fences l (h₁.fences l hl), fun i x hx => h₂.holding i x (h₁.holding i x hx),
    fun g hg => h₁.generators g (h₂.generators g hg)⟩

/-- Nothing is easier to grant, and the same entries wait. -/
structure State.Tighter (s t : State) : Prop where
  queue : s.SameQueue t
  scarcer : s.Scarcer t

theorem State.Tighter.trans {s t u : State} (h₁ : s.Tighter t) (h₂ : t.Tighter u) : s.Tighter u :=
  ⟨h₁.queue.trans h₂.queue, h₁.scarcer.trans h₂.scarcer⟩

theorem State.Tighter.of_entries {s t : State} (hw : t.waitList = s.waitList) (he : t.entries = s.entries)
    (hf : ∀ l : Line, inSet l s.fences = true → inSet l t.fences = true) (hg : t.generators = s.generators) : s.Tighter t :=
  ⟨.of_entries hw he, hf, fun i x hx => by unfold State.entry; rw [he]; exact hx, fun g h => by rw [← hg]; exact h⟩

/-- A state that differs in none of what the arbiter reads. -/
theorem State.Tighter.of_same {s t : State} (hw : t.waitList = s.waitList) (he : t.entries = s.entries)
    (hf : t.fences = s.fences) (hg : t.generators = s.generators) : s.Tighter t :=
  .of_entries hw he (fun _ h => hf ▸ h) hg

theorem State.Tighter.of_entry {s t : State} (i : Slot) (g : Fin 8) (b : EntryBody)
    (ht : ∀ j, t.entry j = if j = i then ⟨g, b⟩ else s.entry j) (hw : t.waitList = s.waitList) (hf : t.fences = s.fences)
    (hg : t.generators = s.generators) (hb : b.waiter = (s.entry i).body.waiter)
    (hheld : b.holding = (s.entry i).body.holding) : s.Tighter t := by
  refine ⟨.of_entry i g b hw ht hb, fun _ h => hf ▸ h, fun j x hx => ?_, fun g h => by rw [← hg]; exact h⟩
  rw [ht]
  split
  · next hj => exact hheld.trans (hj ▸ hx)
  · exact hx

/-- One HELD entry is written again as HELD, with its kind and lines. -/
theorem State.Tighter.of_held {s t : State} {i : Slot} {cl cl' : Claim} {h h' : Held}
    (hbody : (s.entry i).body = .held cl h)
    (ht : ∀ j, t.entry j = if j = i then ⟨(s.entry i).generation, .held cl' h'⟩ else s.entry j)
    (hw : t.waitList = s.waitList) (hf : t.fences = s.fences) (hg : t.generators = s.generators) (hkind : cl'.kind = cl.kind)
    (hlines : cl'.lines = cl.lines) : s.Tighter t :=
  .of_entry i _ _ ht hw hf hg (by rw [hbody]; rfl)
    (by rw [hbody]; simp [EntryBody.holding, EntryBody.heldClaim, hkind, hlines])

theorem SettledLaw.tighter {s t : State} (hs : SettledLaw s) (h : s.Tighter t) : SettledLaw t := by
  intro older newer i hlist cl w hb
  rw [h.queue.waitList] at hlist
  have hwaiter := h.queue.waiter i
  rw [hb] at hwaiter
  obtain ⟨cl', w', hb', hcand⟩ : ∃ cl' w', (s.entry i).body = .waiting cl' w' ∧
      waitingCandidate cl' w' = waitingCandidate cl w := by
    cases hbody : (s.entry i).body with
    | waiting cl' w' =>
      rw [hbody] at hwaiter
      simp only [EntryBody.waiter, Option.some.injEq, Prod.mk.injEq] at hwaiter
      obtain ⟨rfl, hconfigs, -⟩ := hwaiter
      exact ⟨_, _, rfl, by simp [waitingCandidate, hconfigs]⟩
    | _ => rw [hbody] at hwaiter; nomatch hwaiter
  rw [← hcand, Bool.eq_false_iff]
  exact fun hg => Bool.eq_false_iff.1 (hs older newer i hlist cl' w' hb')
    (h.scarcer.grantable (fun j _ => h.queue.waiter j) hg)

/-! ## Grants -/

/-- A grant leaves no FREE generator that was not FREE, no fence and no HELD lease less (R70). -/
theorem State.grantLease_scarcer (s : State) {i : Slot} (hi : (s.entry i).body.holding = none) (cl : Claim)
    (configs : LineConfigs) (pulse : Option PulseSetting) (due : Option Nat) :
    s.Scarcer (s.grantLease i cl configs pulse due) := by
  refine ⟨fun l hl => ?_, fun j x hx => ?_, fun g hg => ?_⟩
  · cases pulse <;> exact hl
  · rw [State.entry_grantLease, if_neg]
    · exact hx
    · rintro rfl
      rw [hi] at hx
      nomatch hx
  · rw [State.grantLease_generators] at hg
    cases pulse with
    | none => exact hg
    | some p =>
      rw [State.startPulses_generator] at hg
      split at hg
      · nomatch hg
      · exact hg

/-- No entry of a list is grantable at its place in it. -/
def State.Blocked (s : State) (list : List Slot) : Prop :=
  ∀ older newer : List Slot, ∀ i : Slot, list = older ++ i :: newer → ∀ cl w, (s.entry i).body = .waiting cl w →
    s.grantable older (waitingCandidate cl w) = false

theorem State.Blocked.append {s : State} {list : List Slot} (h : s.Blocked list) {i : Slot}
    (hi : ∀ cl w, (s.entry i).body = .waiting cl w → s.grantable list (waitingCandidate cl w) = false) :
    s.Blocked (list ++ [i]) := by
  intro older newer j hlist cl w hb
  obtain ⟨m, rfl, hrest⟩ | ⟨m, rfl, hrest⟩ := List.append_eq_append_iff.1 hlist
  · obtain ⟨rfl, hlast⟩ | ⟨-, hlast⟩ := List.singleton_eq_append_iff.1 hrest
    · obtain ⟨rfl, -⟩ := List.cons.inj hlast
      simpa using hi cl w hb
    · nomatch hlast
  · obtain ⟨rfl, hlast⟩ | ⟨m', rfl, -⟩ := List.cons_eq_append_iff.1 hrest
    · obtain ⟨rfl, -⟩ := List.cons.inj hlast
      simpa using hi cl w hb
    · exact h older m' j rfl cl w hb

/-- What blocks a list still blocks it where there is no more to grant. -/
theorem State.Blocked.scarcer {s t : State} {list : List Slot} (hs : s.Blocked list) (h : s.Scarcer t)
    (hold : ∀ i ∈ list, t.entry i = s.entry i) : t.Blocked list := by
  rintro older newer i rfl cl w hb
  rw [hold i (by simp)] at hb
  rw [Bool.eq_false_iff]
  exact fun hg => Bool.eq_false_iff.1 (hs older newer i rfl cl w hb)
    (h.grantable (fun j hj => by rw [hold j (List.mem_append_left _ hj)]) hg)

/-- A list without one of its places. -/
theorem filter_ne_middle {older newer : List Slot} {i : Slot} (h : i ∉ older ++ newer) :
    ((older ++ i :: newer).filter fun j => j ≠ i) = older ++ newer := by
  have hout : ((older ++ newer).filter fun j => decide (j ≠ i)) = older ++ newer := by
    rw [List.filter_eq_self]
    exact fun j hj => decide_eq_true (ne_of_mem_of_not_mem hj h)
  rw [List.filter_append, List.filter_cons_of_neg (by simp), ← List.filter_append, hout]

/-- From a point of the list on, with the older entries blocked, a grant scan ends with no entry grantable (R66). -/
theorem scanFrom_settled (newer : List Slot) : ∀ (older : List Slot) (s : State), WaitListLaw s →
    s.waitList = older ++ newer → s.Blocked older → SettledLaw (scanFrom older newer s) := by
  induction newer with
  | nil =>
    intro older s _ hlist hblocked
    rw [List.append_nil] at hlist
    exact hlist ▸ hblocked
  | cons i newer ih =>
    intro older s hlaw hlist hblocked
    obtain ⟨hnodup, hmem, -⟩ := id hlaw
    have hout : i ∉ older ++ newer := by
      rw [hlist] at hnodup
      exact (List.nodup_middle.1 hnodup).notMem
    unfold scanFrom
    split
    · next cl w hb =>
      split
      · next hg =>
        refine ih _ _ (hlaw.grant i cl w.configs w.pulse w.due) ?_ (hblocked.scarcer ?_ fun j hj => ?_)
        · rw [State.grantLease_waitList]
          change s.waitList.filter _ = _
          rw [hlist, filter_ne_middle hout]
        · exact State.Scarcer.trans (t := s.leaveWaitList i) ⟨fun _ h => h, fun _ _ h => h, fun _ h => h⟩
            ((s.leaveWaitList i).grantLease_scarcer (by change (s.entry i).body.holding = _; rw [hb]; rfl) ..)
        · rw [State.entry_grantLease, if_neg]
          · rfl
          · rintro rfl
            exact hout (List.mem_append_left _ hj)
      · next hg =>
        refine ih _ s hlaw (by rw [hlist, List.append_assoc]; rfl) (hblocked.append fun cl' w' hb' => ?_)
        obtain ⟨rfl, rfl⟩ := EntryBody.waiting.inj (hb.symm.trans hb')
        exact Bool.eq_false_iff.2 hg
    · next hb =>
      have hi : (s.entry i).body.isWaiting = true := (hmem i).1 (by rw [hlist]; simp)
      cases hbody : (s.entry i).body with
      | waiting cl w => exact absurd hbody (hb cl w)
      | _ => rw [hbody] at hi; nomatch hi

theorem WaitListLaw.grantScan_settled {s : State} (hs : WaitListLaw s) : SettledLaw s.grantScan :=
  scanFrom_settled s.waitList [] s hs rfl fun older newer i h => by
    simp at h

/-! ## Parts without a grant scan -/

theorem EntryBody.holding_withConv (b : EntryBody) (v : ConvState) : (b.withConv v).holding = b.holding := by cases b <;> rfl

theorem EntryBody.holding_overrunCleared (b : EntryBody) : b.overrunCleared.holding = b.holding := by cases b <;> rfl

theorem State.deliver_tighter (s : State) (i : Slot) (l : Line) (value : Option Nat) (st : ResultStatus) :
    s.Tighter (s.deliver i l value st) :=
  .of_entry i _ _ (s.entry_deliver i · l value st) rfl rfl rfl (by cases (s.entry i).body <;> rfl)
    (by cases (s.entry i).body <;> rfl)

theorem startNext_tighter (q : List Request) (s : State) : s.Tighter (startNext q s) :=
  startNext_keeps s.Tighter (fun _ h => h.trans (.of_same rfl rfl rfl rfl)) (fun t _ h => h.trans (t.deliver_tighter ..))
    (fun t r _ h _ => h.trans (.of_entry r.slot _ _ (t.entry_setBody r.slot · _) rfl rfl rfl (EntryBody.waiter_withConv _ _)
      (EntryBody.holding_withConv _ _))) q s (.of_same rfl rfl rfl rfl)

theorem State.completeRequest_tighter (s : State) (f : InFlight) : s.Tighter (s.completeRequest f) := by
  unfold State.completeRequest
  split
  · exact startNext_tighter _ _
  · exact (s.deliver_tighter ..).trans (startNext_tighter _ _)

theorem State.requestConversion_tighter (s : State) (r : Request) : s.Tighter (s.requestConversion r) := by
  have hq : s.Tighter (s.joinQueue r) := .of_entry r.slot _ _ (s.entry_setBody r.slot · _) rfl rfl rfl
    (EntryBody.waiter_withConv _ _) (EntryBody.holding_withConv _ _)
  rw [State.requestConversion_eq]
  split
  · exact hq.trans (startNext_tighter _ _)
  · exact hq

theorem State.mapGroup_tighter (s : State) (i : Slot) (f : Running → Running) : s.Tighter (s.mapGroup i f) := by
  refine ⟨.of_entries rfl rfl, fun _ h => h, fun _ _ h => h, fun g hg => ?_⟩
  rw [State.mapGroup_generator] at hg
  split at hg
  · nomatch hg
  · exact hg

theorem State.wrapGroup_tighter (s : State) (i : Slot) : s.Tighter (s.wrapGroup i) := by
  unfold State.wrapGroup
  split
  · next cl h g u hb =>
    obtain ⟨hbody, -, -⟩ := EntryBody.pendingUpdate_some hb
    exact (s.mapGroup_tighter i _).trans (.of_held (s := s.mapGroup i _) hbody
      (State.entry_setBody (s.mapGroup i _) i · _) rfl rfl rfl rfl rfl)
  · exact s.mapGroup_tighter i _

theorem SidePart.tighter {row : Instr} {s t : State} (hrow : mayEnd row = false) (h : SidePart row s t) : s.Tighter t := by
  refine .of_entries (by rw [h.leases]) (by rw [h.leases]) (fun l hl => ?_) (by rw [h.leases])
  cases h with
  | ports _ _ hframe => rw [hframe]; exact hl
  | fence c m hfence =>
    obtain ⟨-, ls, rfl⟩ | rfl := hfence
    · simp [hl]
    · nomatch hrow
  | _ => exact hl

/-- An ACQUIRE that is not grantable waits behind a list that is blocked, and is blocked there. -/
theorem SettledLaw.queue {s : State} (hs : SettledLaw s) (hlaw : WaitListLaw s) {i : Slot} (hfree : (s.entry i).body = .free)
    (c : Client) {r : AcquireRequest} (hgrant : s.grantable s.waitList r.candidate = false) :
    SettledLaw (s.queueRequest i c r) := by
  obtain ⟨-, hmem, -⟩ := hlaw
  have hold (j : Slot) (hj : j ∈ s.waitList) : (s.queueRequest i c r).entry j = s.entry j := by
    rw [State.entry_queueRequest, if_neg]
    rintro rfl
    rw [hmem, hfree] at hj
    nomatch hj
  have hscarcer : s.Scarcer (s.queueRequest i c r) := by
    refine ⟨fun _ h => h, fun j x hx => ?_, fun _ h => h⟩
    rw [State.entry_queueRequest, if_neg]
    · exact hx
    · rintro rfl
      rw [hfree] at hx
      nomatch hx
  refine State.Blocked.append (State.Blocked.scarcer hs hscarcer hold) fun cl w hb => ?_
  rw [State.entry_queueRequest, if_pos rfl] at hb
  obtain ⟨rfl, rfl⟩ := EntryBody.waiting.inj hb
  rw [Bool.eq_false_iff]
  exact fun hg => Bool.eq_false_iff.1 hgrant (hscarcer.grantable (fun j hj => by rw [hold j hj]) hg)

/-- A part of the event of a row without a grant scan keeps the law. -/
theorem SettledLaw.part {row : Instr} {s t : State} (hrow : mayEnd row = false) (hlaw : WaitListLaw s) (hs : SettledLaw s)
    (h : EventPart row s t) : SettledLaw t := by
  cases h with
  | side h => exact hs.tighter (h.tighter hrow)
  | clear p cause => exact fun older newer i h => by simp [State.cleared, State.reset] at h
  | lease h =>
    cases h with
    | retire _ hends => exact absurd (hrow.symm.trans hends) nofun
    | entomb _ _ _ _ hends => exact absurd (hrow.symm.trans hends) nofun
    | grant _ _ _ _ _ _ hends => exact absurd (hrow.symm.trans hends) nofun
    | acquire c tag body r i _ _ _ _ hfree =>
      refine hs.tighter ⟨.of_entry i _ _ (s.grantLease_waitList ..) (s.entry_grantLease i · ..) (by rw [hfree]; rfl), ?_⟩
      exact s.grantLease_scarcer (by rw [hfree]; rfl) ..
    | queue c tag body r i _ _ _ _ hfree hgrant => exact hs.queue hlaw hfree c hgrant
    | renew i cl h rest t hbody =>
      exact hs.tighter (.of_held hbody (s.entry_setBody i · _) rfl rfl rfl (by cases t <;> rfl) (by cases t <;> rfl))
    | setWatch i cl h rest filter ps hbody => exact hs.tighter (.of_held hbody (s.entry_setBody i · _) rfl rfl rfl rfl rfl)
    | clearWatch i cl h hbody => exact hs.tighter (.of_held hbody (s.entry_setBody i · _) rfl rfl rfl rfl rfl)
    | setPulse i cl h g rest r hbody => exact hs.tighter (.of_held hbody (s.entry_setBody i · _) rfl rfl rfl rfl rfl)
    | reconfigure i cl h rest ps hbody =>
      exact hs.tighter (.of_held hbody (s.entry_reconfigureLease i · cl h ps) rfl rfl rfl rfl rfl)
    | writeLevels i cl h rest ps hbody =>
      exact hs.tighter (.of_held hbody (s.entry_reconfigureLease i · cl h _) rfl rfl rfl rfl rfl)
    | convert r => exact hs.tighter (s.requestConversion_tighter r)
    | collectLease c i =>
      refine hs.tighter (.of_entry i _ _ (s.entry_fetchLease c i ·) rfl rfl rfl ?_ ?_)
      · split
        · exact EntryBody.waiter_overrunCleared _
        · rfl
      · split
        · exact EntryBody.holding_overrunCleared _
        · rfl
    | storeIdlePlan => exact hs.tighter (.of_same rfl rfl rfl rfl)
    | countTerm i cl h hbody =>
      refine hs.tighter (.of_held hbody (s.entry_countTerm i · cl h) (State.postIfDue_waitList ..) ?_ ?_ rfl rfl) <;>
        · unfold State.countTerm State.postIfDue
          dsimp only
          split <;> rfl
    | countWait i cl w wl hbody =>
      exact hs.tighter (.of_entry i _ _ (s.entry_countWait i · cl w wl) rfl rfl rfl (by rw [hbody]; rfl) (by rw [hbody]; rfl))
    | sample samples =>
      refine hs.tighter ⟨s.takeSample_sameQueue samples, fun _ h => h, fun i x hx => ?_, fun _ h => h⟩
      rw [State.entry_takeSample, ← hx]
      cases (s.entry i).body <;> rfl
    | advance i => exact hs.tighter (s.mapGroup_tighter i _)
    | wrap i => exact hs.tighter (s.wrapGroup_tighter i)
    | complete => exact hs.tighter (s.completeRequest_tighter _)
    | _ => exact hs.tighter (.of_same rfl rfl rfl rfl)

/-! ## Rows with a grant scan -/

theorem Event.waitListLaw {row : Instr} {s t : State} (hs : WaitListLaw s) (h : Event row s t) : WaitListLaw t :=
  h.keeps (fun _ _ hpart hu => hu.part hpart) hs

/-- A grant scan after some parts of an event, and then the attention lines. -/
theorem Event.scan_settled {row : Instr} {s t : State} (hs : WaitListLaw s) (h : Event row s t) :
    SettledLaw t.grantScan.settleAttention :=
  (h.waitListLaw hs).grantScan_settled.tighter (.of_same rfl rfl rfl rfl)

/-- Taking a command keeps the law when its action does. -/
theorem SettledLaw.takeCommand {α : Type} {cmd : Command} {run : Client → List Byte → State → State × Answer} {c : Client}
    {s : State} {chk : List Byte → Check α} {act : α → State × Answer} (hs : SettledLaw s)
    (hrun : ∀ body, run c body s = answerWith s (chk body) act)
    (hact : ∀ body, Gives (chk body) fun x => SettledLaw (act x).1) : SettledLaw (takeCommand cmd run c s) :=
  takeCommand_keeps SettledLaw (fun _ _ _ ht => ht.tighter (.of_same rfl rfl rfl rfl)) chk act hrun hs hact

theorem WaitListLaw.freed_settled {s : State} (hlaw : WaitListLaw s) (i : Slot) : SettledLaw ((s.retire i).grantScan).settleAttention :=
  Event.scan_settled (row := .release 0) hlaw ((Event.refl s).lease (.retire i rfl))

theorem WaitListLaw.dismissed_settled {s : State} (hlaw : WaitListLaw s) (n : Client) (reason : LastEnd) :
    SettledLaw (((s.teardown n reason).emptySlot n).grantScan).settleAttention :=
  Event.scan_settled (row := .evict 0) hlaw ((Event.refl s).dismissed rfl n reason)

theorem WaitListLaw.clearAll_settled {s : State} (hlaw : WaitListLaw s) (c : Client) : SettledLaw (s.clearAll c) :=
  Event.scan_settled (row := .clearAll c) hlaw
    (Event.retireAll rfl _ (List.foldlRecOn (s.clearedClients c) State.clearClient (motive := Event (.clearAll c) s) (.refl s)
      fun _ ht n _ => ht.dismissed rfl n .cleared))

theorem EntryBody.ended_of_needEnded {b : EntryBody} {r : EndReason} (h : b.needEnded = .ok r) :
    ∃ cl x, b = .ended cl x := by
  cases b with
  | ended cl x => exact ⟨cl, x, rfl⟩
  | _ => nomatch h

/-- The end of a tombstone leaves no more to grant (R47, R67). -/
theorem State.retire_tighter (s : State) {i : Slot} {cl : Claim} {x : Tombstone} (hbody : (s.entry i).body = .ended cl x) :
    s.Tighter (s.retire i) := by
  have hretire : s.retire i = (s.setEntry i ⟨(s.entry i).generation + 1, .free⟩).discardNotices i := by
    simp [State.retire, State.undoEntry, hbody]
  refine .of_entry i ((s.entry i).generation + 1) .free (fun j => ?_) ?_ ?_ ?_ (by rw [hbody]; rfl) (by rw [hbody]; rfl)
  · rw [State.entry_retire, hbody]
    simp
  all_goals rw [hretire]; rfl

theorem SettledLaw.acknowledge {s : State} (hs : SettledLaw s) (c : Client) : SettledLaw (Machine.takeCommand .acknowledge acknowledgeReply c s) := by
  refine hs.takeCommand (fun _ => rfl) fun body => .bind fun i _ => .bind fun r hr => .ok ?_
  obtain ⟨cl, x, hbody⟩ := EntryBody.ended_of_needEnded hr
  exact hs.tighter ((s.retire_tighter hbody).trans (.of_same rfl rfl rfl rfl))

section
variable {s : State} (hlaw : WaitListLaw s) (hs : SettledLaw s)
include hlaw hs

theorem SettledLaw.attach (c : Client) : SettledLaw (Machine.takeCommand .attach attachReply c s) := by
  refine hs.takeCommand (fun _ => rfl) fun body => .bind fun p _ => .bind fun a _ => .ok ?_
  have hclosed : SettledLaw (s.closeOldSession c) := by
    unfold State.closeOldSession
    split
    · exact (Event.waitListLaw (row := .detach c) hlaw
        (Event.teardown rfl (.refl s) c .reattached (.inl rfl))).grantScan_settled
    · exact hs
  exact hclosed.tighter (.of_same rfl rfl rfl rfl)

theorem SettledLaw.entryTakesTick (i : Slot) : SettledLaw (s.entryTakesTick i) := by
  have hentombed (r : EndReason) {cl : Claim} (h : (s.entry i).body.needLive = .ok cl) :
      SettledLaw ((s.entomb i r).grantScan).settleAttention :=
    Event.scan_settled (row := .lapse i) hlaw ((Event.refl s).lease (.entomb i r cl h rfl))
  unfold State.entryTakesTick
  split
  · exact hs
  · next cl w hb =>
    split
    · exact hs
    · next wl hwl =>
      split
      · exact hentombed _ (EntryBody.needLive_waiting hb)
      · next hleft =>
        exact SettledLaw.part (row := .tick) rfl hlaw hs (.lease (.countWait i cl w wl hb hwl (by omega)))
  · next cl hd hb =>
    split
    · exact hentombed _ (EntryBody.needLive_held hb)
    · next hleft => exact SettledLaw.part (row := .tick) rfl hlaw hs (.lease (.countTerm i cl hd hb (by omega)))
  · exact hs

theorem SettledLaw.tickReachesEntry (i : Slot) : SettledLaw (s.tickReachesEntry i) := by
  obtain ⟨-, h⟩ | ⟨-, h⟩ := s.tickReachesEntry_cases i <;> rw [h]
  · exact hs
  · exact SettledLaw.entryTakesTick (s := { s with entryTicks := s.entryTicks.set i false }) (hlaw.same (.of_entries rfl rfl)) (hs.tighter (.of_same rfl rfl rfl rfl)) i

theorem SettledLaw.tickReachesClient (c : Client) : SettledLaw (s.tickReachesClient c) := by
  have hlaw' : WaitListLaw { s with clientTicks := s.clientTicks.set c false } := hlaw.same (.of_entries rfl rfl)
  have hs' : SettledLaw { s with clientTicks := s.clientTicks.set c false } := hs.tighter (.of_same rfl rfl rfl rfl)
  unfold State.tickReachesClient
  split
  · unfold State.clientTakesTick
    split
    · exact hs'
    · split
      · exact hlaw'.dismissed_settled c .timedOut
      · exact hs'.tighter (.of_same rfl rfl rfl rfl)
  · exact hs

/-- The rows with a grant scan, and ACKNOWLEDGE. -/
theorem SettledLaw.exec_ends : ∀ row : Instr, mayEnd row = true → ∃ t, exec row s = .next t ∧ SettledLaw t
  | .attach c, _ => ⟨_, rfl, .attach hlaw hs c⟩
  | .detach c, _ => ⟨_, rfl, hs.takeCommand (fun _ => rfl) fun _ => .of_forall fun _ =>
      Event.scan_settled (row := .detach c) hlaw (Event.teardown rfl (.refl s) c .detached (.inl rfl))⟩
  | .cancel _, _ => ⟨_, rfl, hs.takeCommand (fun _ => rfl) fun _ => .of_forall fun i => hlaw.freed_settled i⟩
  | .release _, _ => ⟨_, rfl, hs.takeCommand (fun _ => rfl) fun _ => .of_forall fun i => hlaw.freed_settled i⟩
  | .acknowledge c, _ => ⟨_, rfl, .acknowledge hs c⟩
  | .revoke c, _ => ⟨_, rfl, hs.takeCommand (fun _ => rfl) fun _ =>
      .bind fun _ _ => .bind fun _ _ => .bind fun i _ => .bind fun cl hcl => .ok <|
        Event.scan_settled (row := .revoke c) hlaw ((Event.refl s).lease (.entomb i .revoked cl hcl rfl))⟩
  | .unfence c, _ => ⟨_, rfl, hs.takeCommand (fun _ => rfl) fun _ =>
      .bind fun _ hc => .of_forall fun _ => Event.scan_settled (row := .unfence c) hlaw
        ((Event.refl s).side (.fence c _ (.inr rfl) (State.needSupervisor_ok hc)))⟩
  | .evict _, _ => ⟨_, rfl, hs.takeCommand (fun _ => rfl) fun _ => .of_forall fun n => by
      split
      · exact hlaw.dismissed_settled n .evicted
      · exact hs⟩
  | .clearAll c, _ => ⟨_, rfl, hs.takeCommand (fun _ => rfl) fun _ => .of_forall fun _ => hlaw.clearAll_settled c⟩
  | .termTick i, _ => ⟨_, rfl, .tickReachesEntry hlaw hs i⟩
  | .lapse i, _ => ⟨_, rfl, .tickReachesEntry hlaw hs i⟩
  | .waitTick i, _ => ⟨_, rfl, .tickReachesEntry hlaw hs i⟩
  | .waitExpiry i, _ => ⟨_, rfl, .tickReachesEntry hlaw hs i⟩
  | .sessionCountTick c, _ => ⟨_, rfl, .tickReachesClient hlaw hs c⟩
  | .sessionExpiry c, _ => ⟨_, rfl, .tickReachesClient hlaw hs c⟩

theorem SettledLaw.exec {row : Instr} {t : State} (h : exec row s = .next t) : SettledLaw t := by
  cases hrow : mayEnd row with
  | true =>
    obtain ⟨u, hu, hsettled⟩ := SettledLaw.exec_ends hlaw hs row hrow
    obtain rfl : u = t := Host.Outcome.next.inj (hu.symm.trans h)
    exact hsettled
  | false =>
    obtain ⟨-, hsettled⟩ := (exec_event_of_next h).keeps (P := fun u => WaitListLaw u ∧ SettledLaw u)
      (fun _ _ hpart hu => ⟨hu.1.part hpart, hu.2.part hrow hu.1 hpart⟩) ⟨hlaw, hs⟩
    exact hsettled

end

theorem State.afterPeriod_tighter (s : State) : s.Tighter s.afterPeriod := by
  refine ⟨.of_entries rfl rfl, fun _ h => h, fun _ _ h => h, fun g hg => ?_⟩
  have hgen : s.afterPeriod.generators[g] = s.generators[g].afterPeriod := tabulate_getElem _ g
  rw [hgen] at hg
  cases h : s.generators[g] with
  | free => rfl
  | running r => rw [h] at hg; nomatch hg

/-- Settles O56: a row whose event makes something easier to grant ends with a grant scan, which leaves no entry grantable
(`WaitListLaw.grantScan_settled`); every other part leaves no more to grant (`SettledLaw.part`). -/
theorem noWaiterIsGrantable : Obligations.NoWaiterIsGrantable := by
  unfold Obligations.NoWaiterIsGrantable
  intro s t hlaw hs h
  unfold step at h
  split at h
  · obtain rfl : s.idle = t := Host.Outcome.next.inj h
    obtain h | ⟨-, -, h⟩ := s.idle_cases <;> rw [h]
    · exact hs
    · exact hs.tighter s.afterPeriod_tighter
  · next row rest _ =>
    exact SettledLaw.exec (s := { s with pending := rest }) (hlaw.same (.of_entries rfl rfl))
      (hs.tighter (.of_same rfl rfl rfl rfl)) h

end Sys2Proof.Machine
end

section
/-!
PROOF. The ports and slots stay in order, and a reset holds every record at its reset value (R174 to R184). In operation every
part of an event that is no part of a transaction keeps the ports; a port's own rows are followed one by one.
-/

namespace Sys2Proof.Machine

/-! ## The rows by their kind -/

/-- What a command does with its body, and its answer. -/
def Command.reply : Command → Client → List Byte → State → State × Answer
  | .attach => attachReply
  | .detach => detachReply
  | .setAttention => setAttentionReply
  | .ping => pingReply
  | .acquire => acquireReply
  | .cancel => cancelReply
  | .release => releaseReply
  | .renew => renewReply
  | .acknowledge => acknowledgeReply
  | .reconfigure => reconfigureReply
  | .describe => describeReply
  | .list => listReply
  | .writeLevels => writeLevelsReply
  | .readLevels => readLevelsReply
  | .setWatch => setWatchReply
  | .clearWatch => clearWatchReply
  | .setPulse => setPulseReply
  | .convert => convertReply
  | .fetchNotice => fetchNoticeReply
  | .revoke => revokeReply
  | .fence => fenceReply
  | .unfence => unfenceReply
  | .setIdlePlan => setIdlePlanReply
  | .evict => evictReply
  | .handOver => handOverReply
  | .setTick => setTickReply
  | .clearAll => clearAllReply
  | .survey => surveyReply
  | .setConverter => setConverterReply

theorem exec_commandRow (cmd : Command) (c : Client) (s : State) :
    exec (cmd.row c) s = .next (takeCommand cmd cmd.reply c s) := by
  cases cmd <;> rfl

/-- The rows that no client's frame drives: the clock, the units and the end of a reset. -/
def isUnitRow : Instr → Bool
  | .tick | .termTick _ | .lapse _ | .waitTick _ | .waitExpiry _ | .sessionCountTick _ | .sessionExpiry _ | .lineSample _ _
  | .generatorWrap _ | .acquisitionEnd _ | .sampleConversionEnd _ | .conversionComplete _ | .resetRelease _ _ _
  | .initializationEnd | .pulseClockCount _ => true
  | _ => false

theorem rowKinds (row : Instr) :
    (∃ cmd c, row = Command.row cmd c) ∨ isPortRow row = true ∨ isResetRow row = true ∨ isUnitRow row = true := by
  cases row with
  | attach c => exact .inl ⟨.attach, c, rfl⟩
  | detach c => exact .inl ⟨.detach, c, rfl⟩
  | setAttention c => exact .inl ⟨.setAttention, c, rfl⟩
  | ping c => exact .inl ⟨.ping, c, rfl⟩
  | acquire c => exact .inl ⟨.acquire, c, rfl⟩
  | cancel c => exact .inl ⟨.cancel, c, rfl⟩
  | release c => exact .inl ⟨.release, c, rfl⟩
  | renew c => exact .inl ⟨.renew, c, rfl⟩
  | acknowledge c => exact .inl ⟨.acknowledge, c, rfl⟩
  | reconfigure c => exact .inl ⟨.reconfigure, c, rfl⟩
  | describe c => exact .inl ⟨.describe, c, rfl⟩
  | list c => exact .inl ⟨.list, c, rfl⟩
  | writeLevels c => exact .inl ⟨.writeLevels, c, rfl⟩
  | readLevels c => exact .inl ⟨.readLevels, c, rfl⟩
  | setWatch c => exact .inl ⟨.setWatch, c, rfl⟩
  | clearWatch c => exact .inl ⟨.clearWatch, c, rfl⟩
  | setPulse c => exact .inl ⟨.setPulse, c, rfl⟩
  | convert c => exact .inl ⟨.convert, c, rfl⟩
  | fetchNotice c => exact .inl ⟨.fetchNotice, c, rfl⟩
  | revoke c => exact .inl ⟨.revoke, c, rfl⟩
  | fence c => exact .inl ⟨.fence, c, rfl⟩
  | unfence c => exact .inl ⟨.unfence, c, rfl⟩
  | setIdlePlan c => exact .inl ⟨.setIdlePlan, c, rfl⟩
  | evict c => exact .inl ⟨.evict, c, rfl⟩
  | handOver c => exact .inl ⟨.handOver, c, rfl⟩
  | setTick c => exact .inl ⟨.setTick, c, rfl⟩
  | clearAll c => exact .inl ⟨.clearAll, c, rfl⟩
  | survey c => exact .inl ⟨.survey, c, rfl⟩
  | setConverter c => exact .inl ⟨.setConverter, c, rfl⟩
  | portIWrite _ => exact .inr (.inl rfl)
  | portIRead _ => exact .inr (.inl rfl)
  | portSCommandWindow _ => exact .inr (.inl rfl)
  | portSFetchWindow _ => exact .inr (.inl rfl)
  | frameArrival _ => exact .inr (.inl rfl)
  | powerOnReset => exact .inr (.inr (.inl rfl))
  | resetPinReset => exact .inr (.inr (.inl rfl))
  | supplyLowReset => exact .inr (.inr (.inl rfl))
  | supplyLoss => exact .inr (.inr (.inl rfl))
  | _ => exact .inr (.inr (.inr rfl))

theorem isPortRow_commandRow (cmd : Command) (c : Client) : isPortRow (cmd.row c) = false := by cases cmd <;> rfl

theorem isResetRow_commandRow (cmd : Command) (c : Client) : isResetRow (cmd.row c) = false := by cases cmd <;> rfl

/-- Where no command waits, a command's row changes nothing (log 5). -/
theorem exec_commandRow_absent {s : State} {c : Client} (h : (s.slot c).state = .none) (cmd : Command) :
    exec (cmd.row c) s = .next s := by
  rw [exec_commandRow, takeCommand_absent]
  intro tag body hsent
  nomatch h.symm.trans hsent

/-! ## The law of the ports -/

/-- Outside operation no client is addressed, no window is open, and slots and client records are as after reset (R175). -/
structure State.Quiet (s : State) : Prop where
  bus : s.portI.bus = .idle ∨ s.portI.bus = .addressing
  window : s.portS.window = .closed
  slot : ∀ c, (s.slot c).state = .none
  client : ∀ c, s.client c = ClientRecord.reset

/-- A read of a client's slot that will empty it, on either port, is under way. -/
def State.Reads (s : State) (c : Client) : Prop :=
  ∃ r : ReadOut, (s.portI.bus = .reading c r ∨ s.portS.window = .fetch c r) ∧ r.throughCheck = true

/-- The law of the ports, with its parts named (R158, R175 to R184). -/
structure PortsInOrder (s : State) : Prop where
  bus : s.portI.bus.well = true
  window : s.portS.window.well = true
  reads : ∀ c, s.Reads c → (s.slot c).state.isReady = true
  slots : ∀ c, (s.slot c).well c = true
  quiet : s.phase ≠ .running → s.Quiet

theorem State.readsReady_iff (s : State) : s.readsReady = true ↔ ∀ c, s.Reads c → (s.slot c).state.isReady = true := by
  unfold State.readsReady
  rw [Bool.and_eq_true]
  constructor
  · rintro ⟨hbus, hwindow⟩ c ⟨r, hr | hr, hcheck⟩
    · simpa [hr, hcheck] using hbus
    · simpa [hr, hcheck] using hwindow
  · intro h
    constructor
    · split
      · next c r hr =>
        cases hcheck : r.throughCheck with
        | false => rfl
        | true => simpa using h c ⟨r, .inl hr, hcheck⟩
      · rfl
    · split
      · next c r hr =>
        cases hcheck : r.throughCheck with
        | false => rfl
        | true => simpa using h c ⟨r, .inr hr, hcheck⟩
      · rfl

theorem portLaw_iff (s : State) : PortLaw s ↔ PortsInOrder s := by
  unfold PortLaw
  rw [State.readsReady_iff]
  constructor
  · rintro ⟨hbus, hwindow, hreads, hslots, hquiet⟩
    exact ⟨hbus, hwindow, hreads, hslots, fun h => ⟨(hquiet h).1, (hquiet h).2.1, fun c => ((hquiet h).2.2 c).1,
      fun c => ((hquiet h).2.2 c).2⟩⟩
  · rintro ⟨hbus, hwindow, hreads, hslots, hquiet⟩
    exact ⟨hbus, hwindow, hreads, hslots, fun h => ⟨(hquiet h).bus, (hquiet h).window,
      fun c => ⟨(hquiet h).slot c, (hquiet h).client c⟩⟩⟩

/-- The ports, slots, clients and phase are as before. -/
structure State.SamePorts (s t : State) : Prop where
  portI : t.portI = s.portI
  portS : t.portS = s.portS
  slots : t.slots = s.slots
  clients : t.clients = s.clients
  phase : t.phase = s.phase

theorem State.SamePorts.trans {s t u : State} (h₁ : s.SamePorts t) (h₂ : t.SamePorts u) : s.SamePorts u :=
  ⟨h₂.portI.trans h₁.portI, h₂.portS.trans h₁.portS, h₂.slots.trans h₁.slots, h₂.clients.trans h₁.clients,
    h₂.phase.trans h₁.phase⟩

theorem State.SamePorts.refl (s : State) : s.SamePorts s := ⟨rfl, rfl, rfl, rfl, rfl⟩

/-- In operation: the two ports and the slots are as before, whatever became of the clients. -/
theorem PortsInOrder.same {s t : State} (hs : PortsInOrder s) (hbus : t.portI = s.portI) (hwindow : t.portS = s.portS)
    (hslots : t.slots = s.slots) (hquiet : t.phase ≠ .running → s.phase ≠ .running ∧ t.clients = s.clients) :
    PortsInOrder t := by
  refine ⟨hbus ▸ hs.bus, hwindow ▸ hs.window, ?_, ?_, fun h => ?_⟩
  · simpa only [State.Reads, State.slot, hbus, hwindow, hslots] using hs.reads
  · simpa only [State.slot, hslots] using hs.slots
  · obtain ⟨hphase, hclients⟩ := hquiet h
    obtain ⟨hb, hw, hslot, hclient⟩ := hs.quiet hphase
    refine ⟨hbus ▸ hb, hwindow ▸ hw, ?_, ?_⟩
    · simpa only [State.slot, hslots] using hslot
    · simpa only [State.client, hclients] using hclient

theorem PortsInOrder.samePorts {s t : State} (hs : PortsInOrder s) (h : s.SamePorts t) : PortsInOrder t :=
  hs.same h.portI h.portS h.slots fun hphase => ⟨h.phase ▸ hphase, h.clients⟩

/-- In operation, one slot changes: it is well formed, and READY or not being read to its end. -/
theorem PortsInOrder.slotChange {s t : State} (hs : PortsInOrder s) (c : Client) (hrun : t.phase = .running)
    (hbus : t.portI = s.portI) (hwindow : t.portS = s.portS) (hother : ∀ d, d ≠ c → t.slot d = s.slot d)
    (hwell : (t.slot c).well c = true) (hread : s.Reads c → (t.slot c).state.isReady = true) : PortsInOrder t := by
  refine ⟨hbus ▸ hs.bus, hwindow ▸ hs.window, fun d hd => ?_, fun d => ?_, fun h => absurd hrun h⟩
  · have hd' : s.Reads d := by simpa only [State.Reads, hbus, hwindow] using hd
    by_cases hdc : d = c
    · exact hdc ▸ hread (hdc ▸ hd')
    · exact hother d hdc ▸ hs.reads d hd'
  · by_cases hdc : d = c
    · exact hdc ▸ hwell
    · exact hother d hdc ▸ hs.slots d

theorem PortsInOrder.setSlot {s : State} (hs : PortsInOrder s) (c : Client) (r : ResponseSlot) (hrun : s.phase = .running)
    (hwell : r.well c = true) (hread : s.Reads c → r.state.isReady = true) : PortsInOrder (s.setSlot c r) :=
  hs.slotChange c hrun rfl rfl (fun d hd => by rw [State.slot_setSlot, if_neg hd])
    (by rwa [State.slot_setSlot, if_pos rfl]) (by rwa [State.slot_setSlot, if_pos rfl])

theorem ResponseSlot.ready_well (c : Client) (r : Response) : (⟨.ready r, false, false⟩ : ResponseSlot).well c = true := by
  simp [ResponseSlot.well]

theorem ResponseSlot.none_well (c : Client) : (⟨.none, false, false⟩ : ResponseSlot).well c = true := by
  simp [ResponseSlot.well]

theorem PortsInOrder.respond {s : State} (hs : PortsInOrder s) (hrun : s.phase = .running) (c : Client) (tag : Byte)
    (a : Answer) : PortsInOrder (s.respond c tag a) :=
  hs.setSlot c _ hrun (ResponseSlot.ready_well c _) fun _ => rfl

/-- Port I takes another state. -/
theorem PortsInOrder.setBus {s : State} (hs : PortsInOrder s) (p : PortIState) (hwell : p.bus.well = true)
    (hread : ∀ c r, p.bus = .reading c r → r.throughCheck = true → (s.slot c).state.isReady = true)
    (hquiet : s.phase ≠ .running → p.bus = .idle ∨ p.bus = .addressing) : PortsInOrder { s with portI := p } := by
  refine ⟨hwell, hs.window, ?_, hs.slots, fun h => ⟨hquiet h, (hs.quiet h).window, (hs.quiet h).slot, (hs.quiet h).client⟩⟩
  rintro c ⟨r, hr | hr, hcheck⟩
  · exact hread c r hr hcheck
  · exact hs.reads c ⟨r, .inr hr, hcheck⟩

/-- Port S takes another state. -/
theorem PortsInOrder.setWindow {s : State} (hs : PortsInOrder s) (p : PortSState) (hwell : p.window.well = true)
    (hread : ∀ c r, p.window = .fetch c r → r.throughCheck = true → (s.slot c).state.isReady = true)
    (hquiet : s.phase ≠ .running → p.window = .closed) : PortsInOrder { s with portS := p } := by
  refine ⟨hs.bus, hwell, ?_, hs.slots, fun h => ⟨(hs.quiet h).bus, hquiet h, (hs.quiet h).slot, (hs.quiet h).client⟩⟩
  rintro c ⟨r, hr | hr, hcheck⟩
  · exact hs.reads c ⟨r, .inl hr, hcheck⟩
  · exact hread c r hr hcheck

/-! ## The rows of the ports -/

theorem PortsInOrder.busFree {s : State} (hs : PortsInOrder s) : PortsInOrder s.busFree :=
  hs.setBus _ rfl (fun _ _ h => nomatch h) fun _ => .inl rfl

theorem PortsInOrder.windowClosed {s : State} (hs : PortsInOrder s) : PortsInOrder s.windowClosed :=
  hs.setWindow _ rfl (fun _ _ h => nomatch h) fun _ => rfl

theorem State.setSlot_setSlot (s : State) (c : Client) (r r' : ResponseSlot) :
    (s.setSlot c r).setSlot c r' = s.setSlot c r' := by
  simp [State.setSlot]

/-- The slot remembers an unread response exactly when one stands in it (R182). -/
theorem State.noteUnread_setSlot (s : State) (c : Client) (r : ResponseSlot) : (s.noteUnread c).setSlot c r = s.setSlot c r := by
  unfold State.noteUnread
  split
  · exact s.setSlot_setSlot c _ r
  · rfl

theorem State.slot_noteUnread (s : State) (c : Client) :
    (s.noteUnread c).slot c =
      { s.slot c with previousUnread := (s.slot c).previousUnread || (s.slot c).state.isReady } := by
  unfold State.noteUnread
  cases h : (s.slot c).state with
  | ready r => simp [SlotState.isReady]
  | _ => simp [SlotState.isReady]

/-- A frame that fails a check is answered at once, and nothing else changes (R181, R182). -/
theorem State.frameArrives_refused {s : State} {c : Client} {f : FrameIn} {st : Status}
    (hfree : (s.slot c).state.isBusy = false) (h : s.frameCheck c f = .error st) :
    s.frameArrives c f = s.setSlot c
      ⟨.ready ⟨st, f.tag, ⟨(s.slot c).dropped, (s.slot c).previousUnread || (s.slot c).state.isReady, s.supervisor = c,
        s.hasNotice c⟩, []⟩, false, false⟩ := by
  have hflags : (s.noteUnread c).responseFlags c =
      ⟨(s.slot c).dropped, (s.slot c).previousUnread || (s.slot c).state.isReady, s.supervisor = c, s.hasNotice c⟩ := by
    unfold State.responseFlags
    rw [State.slot_noteUnread, s.noteUnread_eq]
    rfl
  unfold State.frameArrives
  split
  · next a hbusy => rw [hbusy] at hfree; nomatch hfree
  · rw [h]
    exact hflags ▸ s.noteUnread_setSlot c _

/-- A frame that passes its checks waits in the slot, and reloads the session count but for an ATTACH (R164, R182). -/
theorem State.frameArrives_accepted {s : State} {c : Client} {f : FrameIn} {a : Accepted}
    (hfree : (s.slot c).state.isBusy = false) (h : s.frameCheck c f = .ok a) :
    s.frameArrives c f = (s.keepalive c a.command).setSlot c
      ⟨.busy a, (s.slot c).previousUnread || (s.slot c).state.isReady, (s.slot c).dropped⟩ := by
  have hslot : (s.keepalive c a.command).slot c = s.slot c := by rw [s.keepalive_eq]; rfl
  unfold State.frameArrives
  split
  · next a hbusy => rw [hbusy] at hfree; nomatch hfree
  · rw [h]
    simp only [State.accept]
    rw [State.slot_noteUnread, State.noteUnread_setSlot, hslot]

theorem State.frameArrives_busy {s : State} {c : Client} {f : FrameIn} (h : (s.slot c).state.isBusy = true) :
    s.frameArrives c f = s := by
  unfold State.frameArrives
  cases hstate : (s.slot c).state with
  | busy a => rfl
  | _ => rw [hstate] at h; nomatch h

/-- A frame is accepted into, or refused at, a slot that is not BUSY and that no read will empty (R181, R182). -/
theorem PortsInOrder.frameArrives {s : State} (hs : PortsInOrder s) {c : Client} (f : FrameIn) (hrun : s.phase = .running)
    (hread : ¬s.Reads c) : PortsInOrder (s.frameArrives c f) := by
  cases hbusy : (s.slot c).state.isBusy with
  | true => rwa [State.frameArrives_busy hbusy]
  | false =>
    cases hcheck : s.frameCheck c f with
    | error st =>
      rw [State.frameArrives_refused hbusy hcheck]
      exact hs.setSlot c _ hrun (ResponseSlot.ready_well c _) fun h => absurd h hread
    | ok a =>
      rw [State.frameArrives_accepted hbusy hcheck, s.keepalive_eq]
      have hkept : PortsInOrder { s with clients := (s.keepalive c a.command).clients } :=
        hs.same rfl rfl rfl fun h => absurd hrun h
      refine hkept.setSlot c _ hrun ?_ fun h => absurd h hread
      have hwell := hs.slots c
      simp only [ResponseSlot.well, Bool.and_eq_true] at hwell ⊢
      exact ⟨hwell.1, trivial⟩

theorem PortsInOrder.running_of_writing {s : State} (hs : PortsInOrder s) {c : Client} {f : FrameIn}
    (h : s.portI.bus = .writing c f) : s.phase = .running := by
  by_contra hrun
  obtain hb | hb := (hs.quiet hrun).bus <;> nomatch h.symm.trans hb

theorem PortsInOrder.running_of_window {s : State} (hs : PortsInOrder s) (h : s.portS.window ≠ .closed) :
    s.phase = .running := by
  by_contra hrun
  exact h (hs.quiet hrun).window

theorem PortsInOrder.busStop {s : State} (hs : PortsInOrder s) : PortsInOrder s.busStop := by
  unfold State.busStop
  split
  · next c f hbus =>
    split
    · exact hs.busFree
    · refine hs.busFree.frameArrives f (hs.running_of_writing hbus) ?_
      rintro ⟨r, hr | hr, -⟩
      · nomatch hr
      · have hc := hs.bus
        have hw := hs.window
        change s.portS.window = _ at hr
        simp only [hbus, BusState.well, Bool.and_eq_true, decide_eq_true_eq] at hc
        simp only [hr, WindowState.well, decide_eq_true_eq] at hw
        omega
  · exact hs.busFree

theorem PortsInOrder.busStart {s : State} (hs : PortsInOrder s) : PortsInOrder s.busStart := by
  unfold State.busStart
  dsimp only
  split
  · exact hs.busStop.setBus _ rfl (fun _ _ h => nomatch h) fun _ => .inr rfl
  · exact hs.busStop

/-- What a read of a slot shifts out ends with CHECK only if the slot is READY. -/
theorem SlotState.isReady_of_readOut {v : SlotState} (h : v.readOut.throughCheck = true) : v.isReady = true := by
  cases v with
  | ready r => rfl
  | _ => nomatch h

theorem State.addressed_some {s : State} {a : BitVec 7} {k : Client} (h : s.addressed a = some k) :
    s.phase = .running ∧ k.val ≤ 3 ∧ baseAddress s.straps + k.val = a.toNat := by
  unfold State.addressed at h
  split at h
  · next hrun =>
    have hmem := List.mem_of_find?_eq_some h
    have hbase := List.find?_some h
    have hle : ∀ k ∈ portIClients, k.val ≤ 3 := by decide
    exact ⟨hrun, hle k hmem, by simpa using hbase⟩
  · nomatch h

theorem PortsInOrder.writeAddress {s : State} (hs : PortsInOrder s) (a : BitVec 7) : PortsInOrder (s.writeAddress a) := by
  have hidle : PortsInOrder (s.answerAddress false .idle s.portI.out) :=
    hs.setBus _ rfl (fun _ _ h => nomatch h) fun _ => .inl rfl
  unfold State.writeAddress
  split
  · exact hidle
  · next k hk =>
    obtain ⟨hrun, hle, -⟩ := State.addressed_some hk
    split
    · exact hidle
    · exact hs.setBus _ (by simp [BusState.well, FrameIn.well, FrameIn.empty, hle]) (fun _ _ h => nomatch h)
        fun h => absurd hrun h

theorem PortsInOrder.readAddress {s : State} (hs : PortsInOrder s) (a : BitVec 7) : PortsInOrder (s.readAddress a) := by
  unfold State.readAddress
  split
  · exact hs.setBus _ rfl (fun _ _ h => nomatch h) fun _ => .inl rfl
  · next k hk =>
    obtain ⟨hrun, hle, -⟩ := State.addressed_some hk
    refine hs.setBus _ (by simp [BusState.well, hle]) (fun c r h hcheck => ?_) fun h => absurd hrun h
    obtain ⟨rfl, rfl⟩ := BusState.reading.inj h
    exact SlotState.isReady_of_readOut hcheck

theorem PortsInOrder.addressByte {s : State} (hs : PortsInOrder s) (answer : State → BitVec 7 → State) (a : BitVec 7)
    (hanswer : PortsInOrder (answer s a)) : PortsInOrder (s.addressByte answer a) := by
  unfold State.addressByte
  split
  · exact hanswer
  · exact hs

theorem FrameIn.well_add {f : FrameIn} (hf : f.well = true) (b : Byte) : (f.add b).well = true := by
  have hlen : f.bytes.length = min f.count 45 := of_decide_eq_true hf
  refine decide_eq_true (?_ : (ite _ _ _ : List Byte).length = min (f.count + 1) 45)
  by_cases h : f.count < Config.storedFrameBytes
  · rw [if_pos h, List.length_append, hlen, List.length_singleton]
    change f.count < 45 at h
    omega
  · rw [if_neg h, hlen]
    change ¬f.count < 45 at h
    omega

theorem PortsInOrder.writeData {s : State} (hs : PortsInOrder s) (b : Byte) : PortsInOrder (s.writeData b) := by
  unfold State.writeData
  split
  · next c f hbus =>
    have hwell := hs.bus
    rw [hbus, BusState.well, Bool.and_eq_true] at hwell
    refine hs.setBus _ ?_ (fun _ _ h => nomatch h) fun h => absurd (hs.running_of_writing hbus) h
    rw [BusState.well, Bool.and_eq_true]
    exact ⟨hwell.1, FrameIn.well_add hwell.2 b⟩
  · exact hs

/-- What is left after a byte still ends with CHECK only if it did before, and not after the last byte. -/
theorem ReadOut.shift_throughCheck (r : ReadOut) :
    (r.shift.2.1.throughCheck = true → r.throughCheck = true ∧ r.shift.2.2 = false) ∧
      (r.shift.2.2 = true → r.throughCheck = true) := by
  obtain ⟨rest, thr⟩ := r
  match rest with
  | [] => simp [ReadOut.shift]
  | [b] => simp [ReadOut.shift]
  | b :: b' :: rest => simp [ReadOut.shift]

/-- The byte that ends a READY response empties a slot that was READY, and no other read of it is under way (R184). -/
theorem PortsInOrder.finishRead {s t : State} (hs : PortsInOrder s) (ht : PortsInOrder t) {c : Client}
    (hslot : t.slot c = s.slot c) (hrun : t.phase = .running) (hready : (s.slot c).state.isReady = true)
    (hread : ¬t.Reads c) : PortsInOrder (t.finishRead c) := by
  refine ht.setSlot c _ hrun ?_ fun h => absurd h hread
  have hwell := hs.slots c
  rw [hslot]
  cases hstate : (s.slot c).state with
  | ready r =>
    simp only [ResponseSlot.well, hstate, Bool.and_eq_true] at hwell ⊢
    exact hwell
  | _ => rw [hstate] at hready; nomatch hready

theorem PortsInOrder.readClock {s : State} (hs : PortsInOrder s) : PortsInOrder s.readClock := by
  unfold State.readClock
  split
  · next c r hbus =>
    obtain ⟨hmore, hlast⟩ := r.shift_throughCheck
    have hwell := hs.bus
    rw [hbus, BusState.well, decide_eq_true_eq] at hwell
    have hrun : s.phase = .running := by
      by_contra hrun
      obtain hb | hb := (hs.quiet hrun).bus <;> nomatch hbus.symm.trans hb
    have hshifted : PortsInOrder
        { s with portI := { s.portI with bus := .reading c r.shift.2.1, out := s.portI.out ++ [r.shift.1] } } := by
      refine hs.setBus _ (by simpa [BusState.well] using hwell) (fun d r' h hcheck => ?_) fun h => absurd hrun h
      obtain ⟨rfl, rfl⟩ := BusState.reading.inj h
      exact hs.reads c ⟨r, .inl hbus, (hmore hcheck).1⟩
    dsimp only
    split
    · next hthrough =>
      refine hs.finishRead hshifted rfl hrun (hs.reads c ⟨r, .inl hbus, hlast hthrough⟩) ?_
      rintro ⟨r', hr | hr, hcheck⟩
      · obtain ⟨-, rfl⟩ := BusState.reading.inj hr
        exact absurd ((hmore hcheck).2.symm.trans hthrough) nofun
      · have hw := hs.window
        change s.portS.window = _ at hr
        simp only [hr, WindowState.well, decide_eq_true_eq] at hw
        omega
    · exact hshifted
  · exact hs

/-- A window of one of clients 4 to 7 is no transaction on Port I. -/
theorem PortsInOrder.not_reading {s : State} (hs : PortsInOrder s) {c : Client} (hc : 4 ≤ c.val) (r : ReadOut) :
    s.portI.bus ≠ .reading c r := by
  intro hr
  have hwell := hs.bus
  rw [hr, BusState.well, decide_eq_true_eq] at hwell
  omega

theorem PortsInOrder.command_client {s : State} (hs : PortsInOrder s) {c : Client} {f : FrameIn}
    (h : s.portS.window = .command c f) : 4 ≤ c.val ∧ f.well = true := by
  have hwell := hs.window
  rw [h, WindowState.well, Bool.and_eq_true, decide_eq_true_eq] at hwell
  exact hwell

theorem PortsInOrder.fetch_client {s : State} (hs : PortsInOrder s) {c : Client} {r : ReadOut}
    (h : s.portS.window = .fetch c r) : 4 ≤ c.val := by
  have hwell := hs.window
  rwa [h, WindowState.well, decide_eq_true_eq] at hwell

theorem PortsInOrder.windowClose {s : State} (hs : PortsInOrder s) : PortsInOrder s.windowClose := by
  unfold State.windowClose
  split
  · next c f hwindow =>
    obtain ⟨hc, -⟩ := hs.command_client hwindow
    have hrun := hs.running_of_window (by rw [hwindow]; nofun)
    split
    · exact hs.windowClosed
    · split
      · next a hbusy =>
        refine hs.windowClosed.setSlot c _ hrun ?_ fun ⟨r, hr, hcheck⟩ => ?_
        · change (ResponseSlot.mk (s.slot c).state (s.slot c).previousUnread true).well c = true
          simp [ResponseSlot.well, hbusy, hc]
        · exact hs.windowClosed.reads c ⟨r, hr, hcheck⟩
      · refine hs.windowClosed.frameArrives f hrun ?_
        rintro ⟨r, hr | hr, -⟩
        · exact hs.not_reading hc r hr
        · nomatch hr
  · exact hs.windowClosed

theorem State.windowOf_cases (s : State) (b : Byte) :
    (∃ c : Client, 4 ≤ c.val ∧
      (s.windowOf b = .command c FrameIn.empty ∨ s.windowOf b = .fetch c (s.slot c).state.readOut)) ∨
      s.windowOf b = .ignored := by
  unfold State.windowOf
  split
  · exact .inl ⟨4, by decide, .inl rfl⟩
  · exact .inl ⟨5, by decide, .inl rfl⟩
  · exact .inl ⟨6, by decide, .inl rfl⟩
  · exact .inl ⟨7, by decide, .inl rfl⟩
  · exact .inl ⟨4, by decide, .inr rfl⟩
  · exact .inl ⟨5, by decide, .inr rfl⟩
  · exact .inl ⟨6, by decide, .inr rfl⟩
  · exact .inl ⟨7, by decide, .inr rfl⟩
  · exact .inr rfl

theorem PortsInOrder.windowByte {s : State} (hs : PortsInOrder s) (b : Byte) : PortsInOrder (s.windowByte b) := by
  unfold State.windowByte
  split
  · next hwindow =>
    have hrun := hs.running_of_window (by rw [hwindow]; nofun)
    obtain ⟨c, hc, h | h⟩ | h := s.windowOf_cases b <;> rw [h]
    · exact hs.setWindow _ (by simp [WindowState.well, hc, FrameIn.well, FrameIn.empty]) (fun _ _ h => nomatch h)
        fun h => absurd hrun h
    · refine hs.setWindow _ (by simp [WindowState.well, hc]) (fun d r h hcheck => ?_) fun h => absurd hrun h
      obtain ⟨rfl, rfl⟩ := WindowState.fetch.inj h
      exact SlotState.isReady_of_readOut hcheck
    · exact hs.setWindow _ rfl (fun _ _ h => nomatch h) fun h => absurd hrun h
  · next c f hwindow =>
    obtain ⟨hc, hf⟩ := hs.command_client hwindow
    exact hs.setWindow _ (by simp [WindowState.well, hc, FrameIn.well_add hf b]) (fun _ _ h => nomatch h)
      fun h => absurd (hs.running_of_window (by rw [hwindow]; nofun)) h
  · next c r hwindow =>
    obtain ⟨hmore, hlast⟩ := r.shift_throughCheck
    have hc := hs.fetch_client hwindow
    have hrun := hs.running_of_window (by rw [hwindow]; nofun)
    have hshifted : PortsInOrder { s with portS := ⟨.fetch c r.shift.2.1, s.portS.out ++ [r.shift.1]⟩ } := by
      refine hs.setWindow _ (by simp [WindowState.well, hc]) (fun d r' h hcheck => ?_) fun h => absurd hrun h
      obtain ⟨rfl, rfl⟩ := WindowState.fetch.inj h
      exact hs.reads c ⟨r, .inr hwindow, (hmore hcheck).1⟩
    dsimp only
    split
    · next hthrough =>
      refine hs.finishRead hshifted rfl hrun (hs.reads c ⟨r, .inr hwindow, hlast hthrough⟩) ?_
      rintro ⟨r', hr | hr, hcheck⟩
      · exact hs.not_reading hc r' hr
      · obtain ⟨-, rfl⟩ := WindowState.fetch.inj hr
        exact absurd ((hmore hcheck).2.symm.trans hthrough) nofun
    · exact hshifted
  · next hwindow =>
    exact hs.setWindow _ rfl (fun _ _ h => nomatch h)
      fun h => absurd (hs.running_of_window (by rw [hwindow]; nofun)) h
  · exact hs

theorem PortsInOrder.windowOpen {s : State} (hs : PortsInOrder s) : PortsInOrder s.windowOpen := by
  refine hs.windowClose.setWindow _ ?_ (fun _ _ h => ?_) fun h => if_neg h
  · dsimp only
    split <;> rfl
  · dsimp only at h
    split at h <;> nomatch h

theorem PortsInOrder.windowEvent {s : State} (hs : PortsInOrder s) : ∀ e : WindowEvent, PortsInOrder (s.windowEvent e)
  | .select => hs.windowOpen
  | .opener b => hs.windowByte b
  | .byte b => hs.windowByte b
  | .close => hs.windowClose

theorem PortsInOrder.portRow {s : State} (hs : PortsInOrder s) : ∀ row : Instr, isPortRow row = true →
    ∃ t, exec row s = .next t ∧ PortsInOrder t
  | .portIWrite .start, _ => ⟨_, rfl, hs.busStart⟩
  | .portIWrite (.address a), _ => ⟨_, rfl, hs.addressByte _ a (hs.writeAddress a)⟩
  | .portIWrite (.data b), _ => ⟨_, rfl, hs.writeData b⟩
  | .portIRead .start, _ => ⟨_, rfl, hs.busStart⟩
  | .portIRead (.address a), _ => ⟨_, rfl, hs.addressByte _ a (hs.readAddress a)⟩
  | .portIRead .clock, _ => ⟨_, rfl, hs.readClock⟩
  | .portIRead .stop, _ => ⟨_, rfl, hs.busStop⟩
  | .portSCommandWindow e, _ => ⟨_, rfl, hs.windowEvent e⟩
  | .portSFetchWindow e, _ => ⟨_, rfl, hs.windowEvent e⟩
  | .frameArrival .portI, _ => ⟨_, rfl, hs.busStop⟩
  | .frameArrival .portS, _ => ⟨_, rfl, hs.windowClose⟩

/-! ## The other rows in operation -/

/-- Neither port's read of an emptied slot goes on (R177, R180, R183). -/
theorem PortsInOrder.emptySlot {s : State} (hs : PortsInOrder s) (hrun : s.phase = .running) (c : Client) :
    PortsInOrder (s.emptySlot c) := by
  have hI : PortsInOrder { s with portI := s.portI.afterEmptying c } := by
    unfold PortIState.afterEmptying
    split
    · next k r hbus =>
      split
      · refine hs.setBus _ ?_ (fun _ _ h hcheck => ?_) fun h => absurd hrun h
        · have := hs.bus
          rwa [hbus] at this
        · obtain ⟨-, rfl⟩ := BusState.reading.inj h
          nomatch hcheck
      · exact hs
    · exact hs
  have hS : PortsInOrder { s with portI := s.portI.afterEmptying c, portS := s.portS.afterEmptying c } := by
    unfold PortSState.afterEmptying
    split
    · next k r hwindow =>
      split
      · refine hI.setWindow _ ?_ (fun _ _ h hcheck => ?_) fun h => absurd hrun h
        · have := hs.window
          rwa [hwindow] at this
        · obtain ⟨-, rfl⟩ := WindowState.fetch.inj h
          nomatch hcheck
      · exact hI
    · exact hI
  refine hS.setSlot c ⟨.none, false, false⟩ hrun (ResponseSlot.none_well c) ?_
  rintro ⟨r, hr | hr, hcheck⟩
  · change (s.portI.afterEmptying c).bus = _ at hr
    unfold PortIState.afterEmptying at hr
    split at hr
    · next k r' hbus =>
      split at hr
      · obtain ⟨-, rfl⟩ := BusState.reading.inj hr
        nomatch hcheck
      · next hk =>
        obtain ⟨rfl, -⟩ := BusState.reading.inj (hbus.symm.trans hr)
        exact absurd rfl hk
    · next hno => exact absurd hr (hno c r)
  · change (s.portS.afterEmptying c).window = _ at hr
    unfold PortSState.afterEmptying at hr
    split at hr
    · next k r' hwindow =>
      split at hr
      · obtain ⟨-, rfl⟩ := WindowState.fetch.inj hr
        nomatch hcheck
      · next hk =>
        obtain ⟨rfl, -⟩ := WindowState.fetch.inj (hwindow.symm.trans hr)
        exact absurd rfl hk
    · next hno => exact absurd hr (hno c r)

theorem LeasePart.samePorts {row : Instr} {s t : State} (h : LeasePart row s t) : s.SamePorts t := by
  constructor <;> rw [h.frame]

/-- In operation a part of an event that is no row of a port nor of a reset keeps the ports in order. -/
theorem PortsInOrder.part {row : Instr} {s t : State} (hport : isPortRow row = false) (hreset : isResetRow row = false)
    (hs : PortsInOrder s) (hrun : s.phase = .running) (h : EventPart row s t) : PortsInOrder t ∧ t.phase = .running := by
  cases h with
  | clear _ _ hrow => exact absurd (hreset.symm.trans hrow) nofun
  | lease h => exact ⟨hs.samePorts h.samePorts, h.samePorts.phase.trans hrun⟩
  | side h =>
    have hsame (hphase : t.phase = .running) (hI : t.portI = s.portI) (hS : t.portS = s.portS) (hslots : t.slots = s.slots) :
        PortsInOrder t ∧ t.phase = .running := ⟨hs.same hI hS hslots fun h => absurd hphase h, hphase⟩
    cases h with
    | ports hrow => exact absurd (hport.symm.trans hrow) nofun
    | respond c tag a => exact ⟨hs.respond hrun c tag a, hrun⟩
    | dismiss c reason => exact ⟨PortsInOrder.emptySlot (s := s.endSession c reason) (hs.same rfl rfl rfl fun h => absurd hrun h) hrun c, hrun⟩
    | release _ _ _ _ hphase => nomatch hrun.symm.trans hphase
    | endInitialization _ hphase => nomatch hrun.symm.trans hphase
    | _ => exact hsame hrun rfl rfl rfl

/-! ## Outside operation -/

theorem State.LeasesOnly.samePorts {s t : State} (h : s.LeasesOnly t) : s.SamePorts t := by
  constructor <;> rw [h]

theorem State.grantScan_samePorts (s : State) : s.SamePorts s.grantScan :=
  s.grantScan_keeps s.SamePorts (fun _ older i cl w hu hb hg =>
    hu.trans (LeasePart.samePorts (row := .lapse i) (.grant older i cl w hb hg rfl))) (.refl s)

theorem State.entryTakesTick_samePorts (s : State) (i : Slot) : s.SamePorts (s.entryTakesTick i) := by
  have hentombed (r : EndReason) : s.SamePorts ((s.entomb i r).grantScan).settleAttention :=
    ((s.entomb_leasesOnly i r).samePorts.trans (State.grantScan_samePorts _)).trans ⟨rfl, rfl, rfl, rfl, rfl⟩
  unfold State.entryTakesTick
  split
  · exact .refl s
  · split
    · exact .refl s
    · split
      · exact hentombed _
      · exact ⟨rfl, rfl, rfl, rfl, rfl⟩
  · split
    · exact hentombed _
    · exact (s.countTerm_leasesOnly i _ _).samePorts
  · exact .refl s

theorem State.tickReachesEntry_samePorts (s : State) (i : Slot) : s.SamePorts (s.tickReachesEntry i) := by
  obtain ⟨-, h⟩ | ⟨-, h⟩ := s.tickReachesEntry_cases i <;> rw [h]
  · exact .refl s
  · exact State.SamePorts.trans (t := { s with entryTicks := s.entryTicks.set i false }) ⟨rfl, rfl, rfl, rfl, rfl⟩
      (State.entryTakesTick_samePorts _ i)

/-- A client record as after reset counts no session (R165). -/
theorem State.tickReachesClient_samePorts {s : State} {c : Client} (h : s.client c = ClientRecord.reset) :
    s.SamePorts (s.tickReachesClient c) := by
  unfold State.tickReachesClient
  split
  · have hcount : (({ s with clientTicks := s.clientTicks.set c false } : State).client c).count = none := congrArg _ h
    unfold State.clientTakesTick
    rw [hcount]
    exact ⟨rfl, rfl, rfl, rfl, rfl⟩
  · exact .refl s

theorem State.SamePorts.ite {s t : State} (b : Bool) (h : b = true → s.SamePorts t) : s.SamePorts (if b then t else s) := by
  split
  · next hb => exact h hb
  · exact .refl s

theorem State.endAcquisition_samePorts (s : State) (v : Int) : s.SamePorts (s.endAcquisition v) := by
  unfold State.endAcquisition
  repeat' split
  all_goals exact ⟨rfl, rfl, rfl, rfl, rfl⟩

theorem State.endConversion_samePorts (s : State) (v : Int) : s.SamePorts (s.endConversion v) := by
  unfold State.endConversion
  repeat' split
  case isFalse => exact (s.completeRequest_leasesOnly _).samePorts.trans ⟨rfl, rfl, rfl, rfl, rfl⟩
  all_goals exact ⟨rfl, rfl, rfl, rfl, rfl⟩

theorem State.countGroup_samePorts (s : State) (i : Slot) : s.SamePorts (s.countGroup i) := by
  unfold State.countGroup
  split
  · exact (s.wrapGroup_leasesOnly i).samePorts
  · exact ⟨rfl, rfl, rfl, rfl, rfl⟩

theorem PortsInOrder.releaseReset {s : State} (hs : PortsInOrder s) (st : Straps) : PortsInOrder (s.releaseReset st) := by
  unfold State.releaseReset
  split
  · next hphase => exact hs.same rfl rfl rfl fun _ => ⟨by rw [hphase]; nofun, rfl⟩
  · exact hs

theorem PortsInOrder.endInitialization {s : State} (hs : PortsInOrder s) : PortsInOrder s.endInitialization := by
  unfold State.endInitialization
  split
  · exact hs.same rfl rfl rfl fun h => absurd rfl h
  · exact hs

/-- Where every client record is as after reset, a row of a unit keeps the ports in order. -/
theorem PortsInOrder.unitRow {s : State} (hs : PortsInOrder s) (hclient : ∀ c, s.client c = ClientRecord.reset) :
    ∀ row : Instr, isUnitRow row = true → ∃ t, exec row s = .next t ∧ PortsInOrder t
  | .tick, _ => ⟨_, rfl, hs.samePorts (.ite _ fun _ => ⟨rfl, rfl, rfl, rfl, rfl⟩)⟩
  | .termTick i, _ => ⟨_, rfl, hs.samePorts (s.tickReachesEntry_samePorts i)⟩
  | .lapse i, _ => ⟨_, rfl, hs.samePorts (s.tickReachesEntry_samePorts i)⟩
  | .waitTick i, _ => ⟨_, rfl, hs.samePorts (s.tickReachesEntry_samePorts i)⟩
  | .waitExpiry i, _ => ⟨_, rfl, hs.samePorts (s.tickReachesEntry_samePorts i)⟩
  | .sessionCountTick c, _ => ⟨_, rfl, hs.samePorts (State.tickReachesClient_samePorts (hclient c))⟩
  | .sessionExpiry c, _ => ⟨_, rfl, hs.samePorts (State.tickReachesClient_samePorts (hclient c))⟩
  | .lineSample _ _, _ => ⟨_, rfl, hs.samePorts (.ite _ fun _ => ⟨rfl, rfl, rfl, rfl, rfl⟩)⟩
  | .generatorWrap i, _ => ⟨_, rfl, hs.samePorts (.ite _ fun _ => (s.wrapGroup_leasesOnly i).samePorts)⟩
  | .acquisitionEnd v, _ => ⟨_, rfl, hs.samePorts (.ite _ fun _ => s.endAcquisition_samePorts v)⟩
  | .sampleConversionEnd v, _ => ⟨_, rfl, hs.samePorts (.ite _ fun _ => s.endConversion_samePorts v)⟩
  | .conversionComplete v, _ => ⟨_, rfl, hs.samePorts (.ite _ fun _ => s.endConversion_samePorts v)⟩
  | .resetRelease a b v, _ => ⟨_, rfl, hs.releaseReset ⟨a, b, v⟩⟩
  | .initializationEnd, _ => ⟨_, rfl, by split; exacts [hs.endInitialization, hs]⟩
  | .pulseClockCount i, _ => ⟨_, rfl, hs.samePorts (.ite _ fun _ => s.countGroup_samePorts i)⟩

/-! ## Resets -/

theorem State.cleared_ports (s : State) (p : Phase) (cause : ResetCause) : PortsInOrder (s.cleared p cause) := by
  have hslot (c : Client) : (s.cleared p cause).slot c = ⟨.none, false, false⟩ := by simp [State.slot, State.cleared, State.reset]
  have hclient (c : Client) : (s.cleared p cause).client c = ClientRecord.reset := by
    simp [State.client, State.cleared, State.reset]
  refine ⟨rfl, rfl, ?_, fun c => hslot c ▸ ResponseSlot.none_well c, fun _ => ⟨.inl rfl, rfl, fun c => by rw [hslot], hclient⟩⟩
  rintro c ⟨r, hr | hr, -⟩ <;> nomatch hr

/-- A reset row clears all state, or changes nothing during a reset (R174). -/
theorem exec_resetRow {row : Instr} (hrow : isResetRow row = true) (s : State) :
    (s.phase.active = false ∧ exec row s = .next s) ∨
      ∃ p cause, (p = .inReset ∨ p = .noSupply) ∧ exec row s = .next (s.cleared p cause) := by
  have hassert (cause : ResetCause) : (s.phase.active = false ∧ s.assertReset cause = s) ∨
      s.assertReset cause = s.cleared .inReset cause := by
    unfold State.assertReset
    cases h : s.phase with
    | noSupply => exact .inl ⟨rfl, rfl⟩
    | inReset => exact .inl ⟨rfl, rfl⟩
    | initializing n => exact .inr rfl
    | running => exact .inr rfl
  cases row with
  | powerOnReset => exact .inr ⟨_, _, .inl rfl, rfl⟩
  | supplyLoss => exact .inr ⟨_, _, .inr rfl, rfl⟩
  | resetPinReset =>
    obtain ⟨hactive, h⟩ | h := hassert .resetPin
    · exact .inl ⟨hactive, congrArg _ h⟩
    · exact .inr ⟨_, _, .inl rfl, congrArg _ h⟩
  | supplyLowReset =>
    obtain ⟨hactive, h⟩ | h := hassert .supplyLow
    · exact .inl ⟨hactive, congrArg _ h⟩
    · exact .inr ⟨_, _, .inl rfl, congrArg _ h⟩
  | _ => nomatch hrow

theorem PortsInOrder.exec {row : Instr} {s t : State} (hs : PortsInOrder s) (h : exec row s = .next t) : PortsInOrder t := by
  have of_next {P : State → Prop} (hex : ∃ u, Machine.exec row s = .next u ∧ P u) : P t := by
    obtain ⟨u, hu, hP⟩ := hex
    obtain rfl : u = t := Host.Outcome.next.inj (hu.symm.trans h)
    exact hP
  cases hport : isPortRow row with
  | true => exact of_next (hs.portRow row hport)
  | false =>
    cases hreset : isResetRow row with
    | true =>
      obtain ⟨-, hsame⟩ | ⟨p, cause, -, hcleared⟩ := exec_resetRow hreset s
      · exact of_next ⟨s, hsame, hs⟩
      · exact of_next ⟨_, hcleared, s.cleared_ports p cause⟩
    | false =>
      by_cases hrun : s.phase = .running
      · exact ((exec_event_of_next h).keeps (P := fun u => PortsInOrder u ∧ u.phase = .running)
          (fun _ _ hpart hu => hu.1.part hport hreset hu.2 hpart) ⟨hs, hrun⟩).1
      · have hquiet := hs.quiet hrun
        obtain ⟨cmd, c, rfl⟩ | hrow | hrow | hunit := rowKinds row
        · exact of_next ⟨s, exec_commandRow_absent (hquiet.slot c) cmd, hs⟩
        · exact absurd (hport.symm.trans hrow) nofun
        · exact absurd (hreset.symm.trans hrow) nofun
        · exact of_next (hs.unitRow hquiet.client row hunit)

theorem portLaw_step {s t : State} (hs : PortLaw s) (h : step s = .next t) : PortLaw t := by
  rw [portLaw_iff] at hs ⊢
  unfold step at h
  split at h
  · obtain rfl : s.idle = t := Host.Outcome.next.inj h
    obtain h | ⟨-, -, h⟩ := s.idle_cases <;> rw [h]
    · exact hs
    · refine hs.same rfl rfl rfl fun hphase => ⟨fun hrun => hphase ?_, rfl⟩
      rw [State.afterPeriod_phase, hrun]
      rfl
  · next row rest _ =>
    exact PortsInOrder.exec (s := { s with pending := rest }) (hs.same rfl rfl rfl fun h => ⟨h, rfl⟩) h

/-! ## Records at their reset values -/

/-- Every record at its reset value, with what the queue holds (R174). -/
def State.atReset (p : Phase) (cause : ResetCause) (rest : List Instr) : State :=
  { State.reset with phase := p, cause := cause, pending := rest }

theorem ResetLaw.eq_atReset {s : State} (hs : ResetLaw s) (h : s.phase.active = false) :
    s = State.atReset s.phase s.cause s.pending ∧ (s.phase = .inReset ∨ s.phase = .noSupply) := by
  have hphase : s.phase = .inReset ∨ s.phase = .noSupply := by
    cases hp : s.phase with
    | inReset => exact .inl rfl
    | noSupply => exact .inr rfl
    | _ => rw [hp] at h; nomatch h
  exact ⟨hs hphase, hphase⟩

theorem ResetLaw.of_active {s : State} (h : s.phase.active = true) : ResetLaw s := by
  rintro (hp | hp) <;> rw [hp] at h <;> nomatch h

theorem ResetLaw.atReset (p : Phase) (cause : ResetCause) (rest : List Instr) : ResetLaw (.atReset p cause rest) := fun _ => rfl

theorem State.atReset_entryTicks (p : Phase) (cause : ResetCause) (rest : List Instr) (i : Slot) :
    (State.atReset p cause rest).entryTicks[i] = false := by
  simp [State.atReset, State.reset]

theorem State.atReset_clientTicks (p : Phase) (cause : ResetCause) (rest : List Instr) (c : Client) :
    (State.atReset p cause rest).clientTicks[c] = false := by
  simp [State.atReset, State.reset]

section
variable {p : Phase} (hp : p = .inReset ∨ p = .noSupply) (cause : ResetCause) (rest : List Instr)
include hp

/-- During a reset no row of a port does anything (R175, R177). -/
theorem exec_portRow_atReset : ∀ row : Instr, isPortRow row = true →
    exec row (.atReset p cause rest) = .next (.atReset p cause rest) := by
  intro row hrow
  obtain rfl | rfl := hp <;>
    · cases row with
      | portIWrite e => cases e <;> rfl
      | portIRead e => cases e <;> rfl
      | portSCommandWindow e => cases e <;> rfl
      | portSFetchWindow e => cases e <;> rfl
      | frameArrival e => cases e <;> rfl
      | _ => nomatch hrow

/-- During a reset no row of a unit but the end of the reset does anything (log 19). -/
theorem exec_unitRow_atReset : ∀ row : Instr, isUnitRow row = true → (∀ a b v, row ≠ .resetRelease a b v) →
    exec row (.atReset p cause rest) = .next (.atReset p cause rest) := by
  intro row hrow hrelease
  have hentry (i : Slot) : (State.atReset p cause rest).tickReachesEntry i = .atReset p cause rest :=
    if_neg (by rw [State.atReset_entryTicks]; nofun)
  have hclient (c : Client) : (State.atReset p cause rest).tickReachesClient c = .atReset p cause rest :=
    if_neg (by rw [State.atReset_clientTicks]; nofun)
  cases row with
  | termTick i => exact congrArg _ (hentry i)
  | lapse i => exact congrArg _ (hentry i)
  | waitTick i => exact congrArg _ (hentry i)
  | waitExpiry i => exact congrArg _ (hentry i)
  | sessionCountTick c => exact congrArg _ (hclient c)
  | sessionExpiry c => exact congrArg _ (hclient c)
  | resetRelease a b v => exact absurd rfl (hrelease a b v)
  | tick => obtain rfl | rfl := hp <;> rfl
  | lineSample => obtain rfl | rfl := hp <;> rfl
  | generatorWrap i => rfl
  | acquisitionEnd => rfl
  | sampleConversionEnd => rfl
  | conversionComplete => rfl
  | initializationEnd => obtain rfl | rfl := hp <;> rfl
  | pulseClockCount => rfl
  | _ => nomatch hrow

theorem exec_resetRelease_atReset (a b v : Bool) {t : State}
    (h : exec (.resetRelease a b v) (.atReset p cause rest) = .next t) : ResetLaw t := by
  obtain rfl := Host.Outcome.next.inj h
  obtain rfl | rfl := hp
  · exact .of_active rfl
  · exact .atReset _ _ _

theorem ResetLaw.exec_atReset {row : Instr} {t : State} (h : exec row (.atReset p cause rest) = .next t) : ResetLaw t := by
  have of_same (hex : exec row (.atReset p cause rest) = .next (.atReset p cause rest)) : ResetLaw t := by
    obtain rfl := Host.Outcome.next.inj (hex.symm.trans h)
    exact .atReset _ _ _
  obtain ⟨cmd, c, rfl⟩ | hrow | hrow | hrow := rowKinds row
  · exact of_same (exec_commandRow_absent (by simp [State.slot, State.atReset, State.reset]) cmd)
  · exact of_same (exec_portRow_atReset hp cause rest row hrow)
  · obtain ⟨-, hsame⟩ | ⟨q, cause', -, hcleared⟩ := exec_resetRow hrow (.atReset p cause rest)
    · exact of_same hsame
    · obtain rfl := Host.Outcome.next.inj (hcleared.symm.trans h)
      exact .atReset _ _ _
  · by_cases hrelease : ∃ a b v, row = .resetRelease a b v
    · obtain ⟨a, b, v, rfl⟩ := hrelease
      exact exec_resetRelease_atReset hp cause rest a b v h
    · exact of_same (exec_unitRow_atReset hp cause rest row hrow fun a b v h => hrelease ⟨a, b, v, h⟩)

end

/-- Out of reset only a reset row begins one (R174). -/
theorem EventPart.active {row : Instr} (hrow : isResetRow row = false) {s t : State} (h : EventPart row s t)
    (hs : s.phase.active = true) : t.phase.active = true := by
  cases h with
  | clear _ _ hreset => exact absurd (hrow.symm.trans hreset) nofun
  | lease h => rwa [h.samePorts.phase]
  | side h =>
    cases h with
    | ports _ _ hframe => rw [hframe]; exact hs
    | release => rfl
    | endInitialization => rfl
    | _ => exact hs

theorem ResetLaw.exec {row : Instr} {s t : State} (hs : ResetLaw s) (h : exec row s = .next t) : ResetLaw t := by
  cases hactive : s.phase.active with
  | false =>
    obtain ⟨heq, hp⟩ := hs.eq_atReset hactive
    rw [heq] at h
    exact ResetLaw.exec_atReset hp _ _ h
  | true =>
    cases hrow : isResetRow row with
    | false => exact .of_active ((exec_event_of_next h).keeps (fun _ _ hpart hu => hpart.active hrow hu) hactive)
    | true =>
      obtain ⟨hno, -⟩ | ⟨p, cause, -, hcleared⟩ := exec_resetRow hrow s
      · exact absurd (hactive.symm.trans hno) nofun
      · obtain rfl := Host.Outcome.next.inj (hcleared.symm.trans h)
        exact .atReset _ _ _

theorem resetLaw_step {s t : State} (hs : ResetLaw s) (h : step s = .next t) : ResetLaw t := by
  unfold step at h
  split at h
  · obtain rfl : s.idle = t := Host.Outcome.next.inj h
    obtain h | ⟨hactive, -, h⟩ := s.idle_cases <;> rw [h]
    · exact hs
    · refine .of_active ?_
      rw [State.afterPeriod_phase]
      cases hp : s.phase with
      | running => rfl
      | initializing n => rfl
      | _ => rw [hp] at hactive; nomatch hactive
  · next row rest _ =>
    refine ResetLaw.exec (s := { s with pending := rest }) (fun hp => ?_) h
    have := hs hp
    exact congrArg (fun u : State => { u with pending := rest }) this

/-- Settles O58: the rows of the ports are followed one by one (`PortsInOrder.portRow`), no other row of operation touches a
transaction (`PortsInOrder.part`), and outside it nothing but the end of the reset has an effect (`ResetLaw.exec_atReset`). -/
theorem portsAndResetsStayInOrder : Obligations.PortsAndResetsStayInOrder := by
  unfold Obligations.PortsAndResetsStayInOrder
  exact ⟨fun s t hs h => portLaw_step hs h, fun s t hs h => resetLaw_step hs h⟩

end Sys2Proof.Machine
end

section
/-!
PROOF. What a step does with the queue, and what a period passes (O1, O3); the transactions of Port I and the windows of Port S
(O4 to O6); and the arrival of a frame (O7).
-/

namespace Sys2Proof.Machine

/-! ## The queue -/

/-- Settles O1: by the definition of a step. -/
theorem frontCommandRuns : Obligations.FrontCommandRuns := by
  unfold Obligations.FrontCommandRuns
  intro s row rest h
  unfold step
  rw [h]

theorem InFlight.phasePeriods_eq (f : InFlight) :
    f.phasePeriods =
      match f.phase, f.acquisition with
      | .converting _, _ => 96
      | .acquiring, .us4 => 32
      | .acquiring, .us8 => 64
      | .acquiring, .us16 => 128
      | .acquiring, .us32 => 256 := by
  unfold InFlight.phasePeriods
  cases f.phase <;> cases f.acquisition <;> rfl

theorem State.converterDue_iff (s : State) :
    s.converterDue = true ↔ ∃ f, s.inFlight = some f ∧ f.phasePeriods ≤ f.elapsed := by
  unfold State.converterDue
  cases s.inFlight <;> simp

theorem Phase.due_iff (p : Phase) : p.due = true ↔ ∃ n, p = .initializing n ∧ 16000 ≤ n := by
  cases p with
  | initializing n =>
    have hdue : (Phase.initializing n).due = true ↔ 16000 ≤ n := decide_eq_true_iff
    simp [hdue]
  | _ => simp [Phase.due]

theorem Generator.countDue_iff (g : Generator) : g.countDue = true ↔ ∃ r, g = .running r ∧ r.counting = true := by
  cases g <;> simp [Generator.countDue]

theorem EntryBody.countsDown_iff (b : EntryBody) :
    b.countsDown = true ↔ (∃ cl h, b = .held cl h) ∨ ∃ cl w, b = .waiting cl w ∧ w.wait ≠ none := by
  cases b <;> simp [EntryBody.countsDown, Option.isSome_iff_ne_none]

theorem State.someDue_iff (s : State) :
    s.someDue = true ↔
      tickPeriods s.tickRate ≤ s.tickPosition ∨ 8000 ≤ s.samplePosition ∨ (∃ n, s.phase = .initializing n ∧ 16000 ≤ n) ∨
      (∃ f, s.inFlight = some f ∧ f.phasePeriods ≤ f.elapsed) ∨
      (∃ (g : GenIx) (r : Running), s.generators[g] = .running r ∧ r.counting = true) ∨
      (∃ i : Slot, s.entryTicks[i] = true ∧ ((∃ cl h, (s.entry i).body = .held cl h) ∨
        ∃ cl w, (s.entry i).body = .waiting cl w ∧ w.wait ≠ none)) ∨
      ∃ c : Client, s.clientTicks[c] = true ∧ (s.client c).count ≠ none := by
  have htick : s.tickDue = true ↔ tickPeriods s.tickRate ≤ s.tickPosition := decide_eq_true_iff
  have hsample : s.sampleDue = true ↔ 8000 ≤ s.samplePosition := decide_eq_true_iff
  have hgen : (allGenerators.any fun g => s.generators[g].countDue) = true ↔
      ∃ (g : GenIx) (r : Running), s.generators[g] = .running r ∧ r.counting = true := by
    simp only [List.any_eq_true, Generator.countDue_iff, allGenerators, List.mem_finRange, true_and]
  have hentry : allSlots.any s.entryTickDue = true ↔ ∃ i : Slot, s.entryTicks[i] = true ∧
      ((∃ cl h, (s.entry i).body = .held cl h) ∨ ∃ cl w, (s.entry i).body = .waiting cl w ∧ w.wait ≠ none) := by
    simp only [List.any_eq_true, State.entryTickDue, Bool.and_eq_true, EntryBody.countsDown_iff, allSlots,
      List.mem_finRange, true_and]
  have hclient : allClients.any s.clientTickDue = true ↔ ∃ c : Client, s.clientTicks[c] = true ∧ (s.client c).count ≠ none := by
    simp only [List.any_eq_true, State.clientTickDue, Bool.and_eq_true, Option.isSome_iff_ne_none, allClients,
      List.mem_finRange, true_and]
  unfold State.someDue
  simp only [Bool.or_eq_true, htick, hsample, State.converterDue_iff, Phase.due_iff, hgen, hentry, hclient, or_assoc]
  exact or_congr_right (or_congr_right or_left_comm)

theorem State.idle_eq (s : State) : s.idle = if s.phase.active = true ∧ s.someDue = false then s.afterPeriod else s := by
  unfold State.idle
  simp

theorem step_idle {s : State} (h : s.pending = []) : step s = .next s.idle := by
  unfold step
  rw [h]

/-- Settles O3: a step with an empty queue is `State.idle`, and what is due is read off block by block
(`State.someDue_iff`). -/
theorem emptyQueuePassesOnePeriod : Obligations.EmptyQueuePassesOnePeriod := by
  unfold Obligations.EmptyQueuePassesOnePeriod
  intro s hempty
  refine ⟨fun hpass => ?_, fun hstay => ?_, ?_⟩
  · rw [step_idle hempty, s.idle_eq, if_pos hpass]
    congr 1
    unfold State.afterPeriod
    congr 1
    · refine congrArg tabulate (funext fun g => ?_)
      cases s.generators[g] with
      | free => rfl
      | running r =>
        exact apply_ite Generator.running ..
    · cases s.inFlight <;> rfl
  · rw [step_idle hempty, s.idle_eq, if_neg]
    rintro ⟨hactive, hdue⟩
    simp [hactive, hdue] at hstay
  · have hdue := s.someDue_iff
    simp only [InFlight.phasePeriods_eq] at hdue
    exact hdue

/-! ## Transactions begin and end -/

theorem PortIState.afterEmptying_idle {p : PortIState} (h : p.bus = .idle) (c : Client) : p.afterEmptying c = p := by
  unfold PortIState.afterEmptying
  rw [h]

theorem PortSState.afterEmptying_closed {p : PortSState} (h : p.window = .closed) (c : Client) : p.afterEmptying c = p := by
  unfold PortSState.afterEmptying
  rw [h]

/-- A part of an event that is no row of a port begins no transaction on either. -/
theorem EventPart.noTransaction {row : Instr} (hport : isPortRow row = false) {s t : State} (h : EventPart row s t) :
    (s.portI.bus = .idle → t.portI.bus = .idle) ∧ (s.portS.window = .closed → t.portS.window = .closed) := by
  cases h with
  | clear => exact ⟨fun _ => rfl, fun _ => rfl⟩
  | lease h => rw [h.samePorts.portI, h.samePorts.portS]; exact ⟨id, id⟩
  | side h =>
    cases h with
    | ports hrow => exact absurd (hport.symm.trans hrow) nofun
    | dismiss c reason =>
      refine ⟨fun h => ?_, fun h => ?_⟩
      · change (s.portI.afterEmptying c).bus = .idle
        rwa [PortIState.afterEmptying_idle h]
      · change (s.portS.afterEmptying c).window = .closed
        rwa [PortSState.afterEmptying_closed h]
    | _ => exact ⟨id, id⟩

theorem State.busStop_portS (s : State) : s.busStop.portS = s.portS := by
  unfold State.busStop
  repeat' split
  all_goals simp [State.frameArrives_ports, State.busFree]

theorem State.windowClose_portI (s : State) : s.windowClose.portI = s.portI := by
  unfold State.windowClose
  repeat' split
  all_goals simp [State.frameArrives_ports, State.windowClosed, State.noteDropped]

theorem State.windowByte_portI (s : State) (b : Byte) : (s.windowByte b).portI = s.portI := by
  unfold State.windowByte
  split
  case h_3 =>
    dsimp only
    split <;> rfl
  all_goals rfl

theorem State.windowEvent_portI (s : State) : ∀ e : WindowEvent, (s.windowEvent e).portI = s.portI
  | .select => s.windowClose_portI
  | .opener b => s.windowByte_portI b
  | .byte b => s.windowByte_portI b
  | .close => s.windowClose_portI

theorem State.busStart_portS (s : State) : s.busStart.portS = s.portS := by
  unfold State.busStart
  dsimp only
  split
  · exact s.busStop_portS
  · exact s.busStop_portS

theorem State.addressByte_portS (s : State) (answer : State → BitVec 7 → State) (a : BitVec 7)
    (h : (answer s a).portS = s.portS) : (s.addressByte answer a).portS = s.portS := by
  unfold State.addressByte
  split
  · exact h
  · rfl

theorem State.writeAddress_portS (s : State) (a : BitVec 7) : (s.writeAddress a).portS = s.portS := by
  unfold State.writeAddress
  repeat' split
  all_goals rfl

theorem State.readAddress_portS (s : State) (a : BitVec 7) : (s.readAddress a).portS = s.portS := by
  unfold State.readAddress
  split <;> rfl

theorem State.writeData_portS (s : State) (b : Byte) : (s.writeData b).portS = s.portS := by
  unfold State.writeData
  split <;> rfl

theorem State.readClock_portS (s : State) : s.readClock.portS = s.portS := by
  unfold State.readClock
  split
  · dsimp only
    split <;> rfl
  · rfl

/-- The events of Port I leave a closed window of Port S closed, and it begins a transaction at a START alone. -/
theorem exec_portIRow {s t : State} {row : Instr} (h : exec row s = .next t)
    (hrow : (∃ e, row = .portIWrite e) ∨ (∃ e, row = .portIRead e) ∨ row = .frameArrival .portI) :
    t.portS = s.portS ∧
      (row ≠ .portIWrite .start → row ≠ .portIRead .start → s.portI.bus = .idle → t.portI.bus = .idle) := by
  obtain ⟨e, rfl⟩ | ⟨e, rfl⟩ | rfl := hrow
  · cases e with
    | start => obtain rfl := Host.Outcome.next.inj h; exact ⟨s.busStart_portS, fun h => absurd rfl h⟩
    | address a =>
      obtain rfl := Host.Outcome.next.inj h
      refine ⟨s.addressByte_portS _ a (s.writeAddress_portS a), fun _ _ hidle => ?_⟩
      unfold State.addressByte
      rwa [hidle]
    | data b =>
      obtain rfl := Host.Outcome.next.inj h
      refine ⟨s.writeData_portS b, fun _ _ hidle => ?_⟩
      unfold State.writeData
      rwa [hidle]
  · cases e with
    | start => obtain rfl := Host.Outcome.next.inj h; exact ⟨s.busStart_portS, fun _ h => absurd rfl h⟩
    | address a =>
      obtain rfl := Host.Outcome.next.inj h
      refine ⟨s.addressByte_portS _ a (s.readAddress_portS a), fun _ _ hidle => ?_⟩
      unfold State.addressByte
      rwa [hidle]
    | clock =>
      obtain rfl := Host.Outcome.next.inj h
      refine ⟨s.readClock_portS, fun _ _ hidle => ?_⟩
      unfold State.readClock
      rwa [hidle]
    | stop => obtain rfl := Host.Outcome.next.inj h; exact ⟨s.busStop_portS, fun _ _ _ => s.busStop_bus⟩
  · obtain rfl := Host.Outcome.next.inj h
    exact ⟨s.busStop_portS, fun _ _ _ => s.busStop_bus⟩

/-- The events of Port S leave Port I, and a window begins at S_SEL_N falling alone. -/
theorem State.windowEvent_closed {s : State} (h : s.portS.window = .closed) (e : WindowEvent) (he : e ≠ .select) :
    (s.windowEvent e).portS.window = .closed := by
  have hbyte (b : Byte) : (s.windowByte b).portS.window = .closed := by
    unfold State.windowByte
    rwa [h]
  cases e with
  | select => exact absurd rfl he
  | opener b => exact hbyte b
  | byte b => exact hbyte b
  | close => exact s.windowClose_window

/-- No row but a START begins a transaction on Port I, and none but a fall of S_SEL_N one on Port S (R176, R178). -/
theorem exec_noTransaction {s t : State} {row : Instr} (h : exec row s = .next t) :
    (row ≠ .portIWrite .start → row ≠ .portIRead .start → s.portI.bus = .idle → t.portI.bus = .idle) ∧
      (row ≠ .portSCommandWindow .select → row ≠ .portSFetchWindow .select → s.portS.window = .closed →
        t.portS.window = .closed) := by
  cases hport : isPortRow row with
  | false =>
    obtain ⟨hI, hS⟩ := (exec_event_of_next h).keeps
      (P := fun u => (s.portI.bus = .idle → u.portI.bus = .idle) ∧ (s.portS.window = .closed → u.portS.window = .closed))
      (fun _ _ hpart hu => ⟨fun hs => (hpart.noTransaction hport).1 (hu.1 hs),
        fun hs => (hpart.noTransaction hport).2 (hu.2 hs)⟩) ⟨id, id⟩
    exact ⟨fun _ _ => hI, fun _ _ => hS⟩
  | true =>
    have portI (hrow : (∃ e, row = .portIWrite e) ∨ (∃ e, row = .portIRead e) ∨ row = .frameArrival .portI) :=
      exec_portIRow h hrow
    cases row with
    | portIWrite e => obtain ⟨hS, hI⟩ := portI (.inl ⟨e, rfl⟩); exact ⟨hI, fun _ _ hs => hS ▸ hs⟩
    | portIRead e => obtain ⟨hS, hI⟩ := portI (.inr (.inl ⟨e, rfl⟩)); exact ⟨hI, fun _ _ hs => hS ▸ hs⟩
    | portSCommandWindow e =>
      obtain rfl := Host.Outcome.next.inj h
      exact ⟨fun _ _ hs => s.windowEvent_portI e ▸ hs, fun he _ hs => s.windowEvent_closed hs e fun h => he (h ▸ rfl)⟩
    | portSFetchWindow e =>
      obtain rfl := Host.Outcome.next.inj h
      exact ⟨fun _ _ hs => s.windowEvent_portI e ▸ hs, fun _ he hs => s.windowEvent_closed hs e fun h => he (h ▸ rfl)⟩
    | frameArrival p =>
      cases p with
      | portI => obtain ⟨hS, hI⟩ := portI (.inr (.inr rfl)); exact ⟨hI, fun _ _ hs => hS ▸ hs⟩
      | portS =>
        obtain rfl := Host.Outcome.next.inj h
        exact ⟨fun _ _ hs => s.windowClose_portI ▸ hs, fun _ _ _ => s.windowClose_window⟩
    | _ => nomatch hport

/-- A reset source ends every transaction for the part (R175). -/
theorem exec_resetRow_ports {s t : State} {row : Instr} (h : exec row s = .next t) (hrow : isResetRow row = true)
    (hactive : s.phase.active = true) : t.portI = ⟨.idle, false, []⟩ ∧ t.portS = ⟨.closed, []⟩ := by
  obtain ⟨hno, -⟩ | ⟨p, cause, -, hcleared⟩ := exec_resetRow hrow s
  · exact absurd (hactive.symm.trans hno) nofun
  · obtain rfl := Host.Outcome.next.inj (hcleared.symm.trans h)
    exact ⟨rfl, rfl⟩

/-! ## Addresses -/

theorem baseAddress_eq (st : Straps) :
    baseAddress st = (if st.as1 then 0x50 else 0x20) + (if st.as0 then 8 else 0) := by
  obtain ⟨as1, as0, supv⟩ := st
  cases as1 <;> cases as0 <;> rfl

/-- The client that an address names, after initialization (R158). -/
theorem State.addressed_eq_some {s : State} {a : BitVec 7} {k : Client} (hk : k.val ≤ 3) (hrun : s.phase = .running)
    (ha : a.toNat = (if s.straps.as1 then 0x50 else 0x20) + (if s.straps.as0 then 8 else 0) + k.val) :
    s.addressed a = some k := by
  have hmem : k ∈ portIClients := by
    have : ∀ k : Client, k.val ≤ 3 → k ∈ portIClients := by decide
    exact this k hk
  rw [← baseAddress_eq] at ha
  cases haddr : s.addressed a with
  | none =>
    unfold State.addressed at haddr
    rw [if_pos hrun, List.find?_eq_none] at haddr
    exact absurd (decide_eq_true ha.symm) (haddr k hmem)
  | some k' =>
    obtain ⟨-, -, hk'⟩ := State.addressed_some haddr
    exact congrArg some (Fin.ext (by omega))

theorem State.addressed_eq_none {s : State} {a : BitVec 7} (h : s.phase ≠ .running ∨ ∀ k : Nat, k ≤ 3 →
      a.toNat ≠ (if s.straps.as1 then 0x50 else 0x20) + (if s.straps.as0 then 8 else 0) + k) : s.addressed a = none := by
  rw [Option.eq_none_iff_forall_ne_some]
  intro k hk
  obtain ⟨hrun, hle, ha⟩ := State.addressed_some hk
  obtain hphase | hno := h
  · exact hphase hrun
  · exact hno k.val hle (by rw [← ha, baseAddress_eq])

theorem State.addressByte_addressing {s : State} (h : s.portI.bus = .addressing) (answer : State → BitVec 7 → State)
    (a : BitVec 7) : s.addressByte answer a = answer s a := by
  unfold State.addressByte
  rw [h]

theorem State.addressByte_other {s : State} (h : s.portI.bus ≠ .addressing) (answer : State → BitVec 7 → State)
    (a : BitVec 7) : s.addressByte answer a = s := by
  unfold State.addressByte
  split
  · next h' => exact absurd h' h
  · rfl

theorem State.frameArrives_phase (s : State) (c : Client) (f : FrameIn) : (s.frameArrives c f).phase = s.phase := by
  unfold State.frameArrives State.accept State.keepalive State.noteUnread
  repeat' split
  all_goals rfl

theorem State.busStop_phase (s : State) : s.busStop.phase = s.phase := by
  unfold State.busStop
  repeat' split
  all_goals simp [State.frameArrives_phase, State.busFree]

theorem State.windowClose_phase (s : State) : s.windowClose.phase = s.phase := by
  unfold State.windowClose
  repeat' split
  all_goals simp [State.frameArrives_phase, State.windowClosed, State.noteDropped]

/-- One byte of a slot that is being shifted out (R184). -/
theorem ReadOut.shift_cons (b : Byte) (rest : List Byte) (thr : Bool) :
    (⟨b :: rest, thr⟩ : ReadOut).shift = (b, ⟨rest, thr && !rest.isEmpty⟩, thr && rest.isEmpty) := by
  cases rest <;> simp [ReadOut.shift]

/-- Settles O4. -/
theorem busWriteCollectsFrame : Obligations.BusWriteCollectsFrame := by
  unfold Obligations.BusWriteCollectsFrame
  refine ⟨fun s k a hk hrun hbus ha => ?_, fun s a hbus hno => ?_, fun s a hbus => ?_, fun s t h => ?_,
    ⟨fun s t row h hrow hactive => (exec_resetRow_ports h hrow hactive).1, fun s t row h => (exec_noTransaction h).1⟩,
    fun s c f b hbus => ?_, fun s b hbus => ?_⟩
  · change Host.Outcome.next (s.addressByte State.writeAddress a) = _
    rw [State.addressByte_addressing hbus]
    unfold State.writeAddress
    rw [State.addressed_eq_some hk hrun ha]
    dsimp only
    cases (s.slot k).state <;> rfl
  · change Host.Outcome.next (s.addressByte State.writeAddress a) = _
    rw [State.addressByte_addressing hbus]
    unfold State.writeAddress
    rw [State.addressed_eq_none hno]
    rfl
  · exact congrArg _ (State.addressByte_other hbus _ a)
  · obtain rfl : s.busStop = t := Host.Outcome.next.inj h
    refine ⟨s.busStop_bus, ?_⟩
    change Host.Outcome.next s.busStart = _
    unfold State.busStart
    rw [← s.busStop_phase]
  · change Host.Outcome.next (s.writeData b) = _
    unfold State.writeData
    rw [hbus]
    rfl
  · change Host.Outcome.next (s.writeData b) = _
    unfold State.writeData
    split
    · next c f h => exact absurd h (hbus c f)
    · rfl

theorem State.readClock_reading {s : State} {c : Client} {r : ReadOut} (h : s.portI.bus = .reading c r) :
    s.readClock =
      { s with
        portI := { s.portI with bus := .reading c r.shift.2.1, out := s.portI.out ++ [r.shift.1] }
        slots := if r.shift.2.2 then s.slots.set c { s.slot c with state := .none } else s.slots } := by
  unfold State.readClock
  rw [h]
  dsimp only
  cases r.shift.2.2 <;> rfl

/-- Settles O5. -/
theorem busReadShiftsSlotOut : Obligations.BusReadShiftsSlotOut := by
  unfold Obligations.BusReadShiftsSlotOut
  refine ⟨fun s k a hk hrun hbus ha => ?_, fun s a hbus hno => ?_, fun s a hbus => ?_, fun s => ⟨rfl, rfl⟩,
    fun s c b rest thr hbus => ?_, fun s c thr hbus => ?_, fun s hbus => ?_⟩
  · change Host.Outcome.next (s.addressByte State.readAddress a) = _
    rw [State.addressByte_addressing hbus]
    unfold State.readAddress
    rw [State.addressed_eq_some hk hrun ha]
    dsimp only
    cases (s.slot k).state <;> rfl
  · change Host.Outcome.next (s.addressByte State.readAddress a) = _
    rw [State.addressByte_addressing hbus]
    unfold State.readAddress
    rw [State.addressed_eq_none hno]
    rfl
  · exact congrArg _ (State.addressByte_other hbus _ a)
  · change Host.Outcome.next s.readClock = _
    rw [State.readClock_reading hbus, ReadOut.shift_cons]
  · change Host.Outcome.next s.readClock = _
    rw [State.readClock_reading hbus]
    change Host.Outcome.next { s with portI := ⟨.reading c ⟨[], thr⟩, _, _⟩ } = _
    rw [← hbus]
    rfl
  · change Host.Outcome.next s.readClock = _
    unfold State.readClock
    split
    · next c r h => exact absurd h (hbus c r)
    · rfl

/-! ## Windows -/

theorem State.windowByte_opening {s : State} (h : s.portS.window = .opening) (b : Byte) :
    s.windowByte b = { s with portS := ⟨s.windowOf b, s.portS.out ++ [0xFF]⟩ } := by
  unfold State.windowByte
  rw [h]

theorem State.windowByte_fetch {s : State} {c : Client} {r : ReadOut} (h : s.portS.window = .fetch c r) (sent : Byte) :
    s.windowByte sent =
      { s with
        portS := ⟨.fetch c r.shift.2.1, s.portS.out ++ [r.shift.1]⟩
        slots := if r.shift.2.2 then s.slots.set c { s.slot c with state := .none } else s.slots } := by
  unfold State.windowByte
  rw [h]
  dsimp only
  cases r.shift.2.2 <;> rfl

theorem portS_client : ∀ {c : Client}, 4 ≤ c.val → c = 4 ∨ c = 5 ∨ c = 6 ∨ c = 7 := by decide

/-- The opener of a command window names its client (Table 10-1). -/
theorem State.windowOf_command (s : State) {b : Byte} {c : Client} (hc : 4 ≤ c.val) (hb : b.toNat = 0xC0 + (c.val - 4)) :
    s.windowOf b = .command c FrameIn.empty := by
  obtain h | h | h | h : c = 4 ∨ c = 5 ∨ c = 6 ∨ c = 7 := portS_client hc <;>
    · subst h
      unfold State.windowOf
      rw [hb]
      rfl

theorem State.windowOf_fetch (s : State) {b : Byte} {c : Client} (hc : 4 ≤ c.val) (hb : b.toNat = 0x80 + (c.val - 4)) :
    s.windowOf b = .fetch c (s.slot c).state.readOut := by
  obtain h | h | h | h : c = 4 ∨ c = 5 ∨ c = 6 ∨ c = 7 := portS_client hc <;>
    · subst h
      unfold State.windowOf
      rw [hb]
      rfl

theorem State.windowOf_ignored (s : State) {b : Byte} (hcommand : ¬(0xC0 ≤ b.toNat ∧ b.toNat ≤ 0xC3))
    (hfetch : ¬(0x80 ≤ b.toNat ∧ b.toNat ≤ 0x83)) : s.windowOf b = .ignored := by
  unfold State.windowOf
  split <;> first | rfl | omega

/-- Settles O6. -/
theorem windowsFollowTheirOpener : Obligations.WindowsFollowTheirOpener := by
  unfold Obligations.WindowsFollowTheirOpener
  refine ⟨⟨fun _ _ => rfl, fun _ _ => rfl, fun s t h => ?_, fun s h => ?_,
    ⟨fun s t row h hrow hactive => (exec_resetRow_ports h hrow hactive).2, fun s t row h => (exec_noTransaction h).2⟩,
    fun s b c h hc hb => ?_, fun s b h hcommand hfetch => ?_, fun s b c f h => ?_, fun s b h => ?_, fun s b h => ?_⟩,
    fun s b c h hc hb => ?_, fun s c sent b rest thr h => ?_, fun s c sent thr h => ?_⟩
  · obtain rfl : s.windowClose = t := Host.Outcome.next.inj h
    refine ⟨s.windowClose_window, rfl, ?_⟩
    change Host.Outcome.next s.windowOpen = _
    unfold State.windowOpen
    dsimp only
    rw [s.windowClose_phase]
  · change Host.Outcome.next s.windowClose = _
    unfold State.windowClose
    rw [h]
    rfl
  · change Host.Outcome.next (s.windowByte b) = _
    rw [State.windowByte_opening h, s.windowOf_command hc hb]
    rfl
  · change Host.Outcome.next (s.windowByte b) = _
    rw [State.windowByte_opening h, s.windowOf_ignored hcommand hfetch]
  · change Host.Outcome.next (s.windowByte b) = _
    unfold State.windowByte
    rw [h]
    dsimp only
    cases (s.slot c).state <;> rfl
  · change Host.Outcome.next (s.windowByte b) = _
    unfold State.windowByte
    rw [h]
  · change Host.Outcome.next (s.windowByte b) = _
    unfold State.windowByte
    rw [h]
  · change Host.Outcome.next (s.windowByte b) = _
    rw [State.windowByte_opening h, s.windowOf_fetch hc hb]
    cases (s.slot c).state <;> rfl
  · change Host.Outcome.next (s.windowByte sent) = _
    rw [State.windowByte_fetch h, ReadOut.shift_cons]
  · change Host.Outcome.next (s.windowByte sent) = _
    rw [State.windowByte_fetch h]
    rfl

/-! ## Arriving frames -/

theorem State.busStop_of_not_writing {s : State} (h : ∀ c f, s.portI.bus ≠ .writing c f) : s.busStop = s.busFree := by
  unfold State.busStop
  split
  · next c f hbus => exact absurd hbus (h c f)
  · rfl

theorem State.windowClose_of_not_command {s : State} (h : ∀ c f, s.portS.window ≠ .command c f) :
    s.windowClose = s.windowClosed := by
  unfold State.windowClose
  split
  · next c f hwindow => exact absurd hwindow (h c f)
  · rfl

/-- The frame checks of R181, on a frame of at least five bytes. -/
theorem State.frameCheck_bytes (s : State) (c : Client) (len code tag epoch chk : Byte) (body : List Byte) :
    s.frameCheck c ⟨[len, code, tag, epoch] ++ body ++ [chk], body.length + 5⟩ =
      if body.length + 5 ≠ len.toNat + 1 ∨ 45 < body.length + 5 then .error .badLength
      else if chk ≠ checkValue ([len, code, tag, epoch] ++ body) then .error .badCheck
      else
        match commandOfByte code with
        | none => .error .unknownCommand
        | some cmd =>
          if cmd = .attach then .ok ⟨tag, cmd, body⟩
          else if (s.client c).attached = false then .error .notAttached
          else if epoch ≠ (s.client c).epoch then .error .staleSession
          else .ok ⟨tag, cmd, body⟩ := by
  have hlast : ([len, code, tag, epoch] ++ body ++ [chk]).getLast? = some chk := List.getLast?_concat
  have hdrop : ([len, code, tag, epoch] ++ body ++ [chk]).dropLast = [len, code, tag, epoch] ++ body := List.dropLast_concat
  have hrest : (body ++ [chk]).dropLast = body := List.dropLast_concat
  have hlength : (body.length + 5 ≠ len.toNat + 1 ∨ body.length + 5 < 5 ∨ 45 < body.length + 5) ↔
      (body.length + 5 ≠ len.toNat + 1 ∨ 45 < body.length + 5) := or_congr_right (by omega)
  change s.frameCheck c ⟨len :: code :: tag :: epoch :: (body ++ [chk]), body.length + 5⟩ = _
  unfold State.frameCheck
  refine if_congr hlength rfl (if_congr ?_ rfl ?_)
  · change ¬([len, code, tag, epoch] ++ body ++ [chk]).getLast? = some (checkValue
      ([len, code, tag, epoch] ++ body ++ [chk]).dropLast) ↔ _
    rw [hlast, hdrop, Option.some.injEq]
  · cases commandOfByte code with
    | none => rfl
    | some cmd =>
      dsimp only
      rw [hrest]
      by_cases hcmd : cmd = .attach <;> simp [hcmd]

theorem State.frameCheck_badLength (s : State) (c : Client) {f : FrameIn}
    (h : f.count < 5 ∨ 45 < f.count) : s.frameCheck c f = .error .badLength := by
  unfold State.frameCheck
  split
  · rw [if_pos (.inr h)]
  · rfl

/-- A row of the arrival of a frame: the port and the transaction that ends with it, and the state in which it has ended. -/
def Arrives (row : Instr) (s u : State) (c : Client) (f : FrameIn) : Prop :=
  (row = .frameArrival .portI ∧ s.portI.bus = .writing c f ∧ u = { s with portI := { s.portI with bus := .idle } }) ∨
    (row = .frameArrival .portS ∧ s.portS.window = .command c f ∧
      u = { s with portS := { s.portS with window := .closed } })

theorem Arrives.slot {row : Instr} {s u : State} {c : Client} {f : FrameIn} (h : Arrives row s u c f) (d : Client) :
    u.slot d = s.slot d := by
  obtain ⟨-, -, rfl⟩ | ⟨-, -, rfl⟩ := h <;> rfl

theorem Arrives.check {row : Instr} {s u : State} {c : Client} {f : FrameIn} (h : Arrives row s u c f) (d : Client)
    (g : FrameIn) : u.frameCheck d g = s.frameCheck d g := by
  obtain ⟨-, -, rfl⟩ | ⟨-, -, rfl⟩ := h <;> rfl

theorem Arrives.exec_empty {row : Instr} {s u : State} {c : Client} {f : FrameIn} (h : Arrives row s u c f)
    (hf : f.count = 0) : exec row s = .next u := by
  obtain ⟨rfl, hbus, rfl⟩ | ⟨rfl, hwindow, rfl⟩ := h
  · change Host.Outcome.next s.busStop = _
    unfold State.busStop
    rw [hbus]
    exact congrArg _ (if_pos hf)
  · change Host.Outcome.next s.windowClose = _
    unfold State.windowClose
    rw [hwindow]
    exact congrArg _ (if_pos hf)

theorem Arrives.exec {row : Instr} {s u : State} {c : Client} {f : FrameIn} (h : Arrives row s u c f) (hf : 0 < f.count)
    (hfree : (s.slot c).state.isBusy = false) : exec row s = .next (u.frameArrives c f) := by
  obtain ⟨rfl, hbus, rfl⟩ | ⟨rfl, hwindow, rfl⟩ := h
  · change Host.Outcome.next s.busStop = _
    unfold State.busStop
    rw [hbus]
    exact congrArg _ (if_neg (Nat.pos_iff_ne_zero.1 hf))
  · change Host.Outcome.next s.windowClose = _
    unfold State.windowClose
    rw [hwindow]
    dsimp only
    rw [if_neg (Nat.pos_iff_ne_zero.1 hf)]
    split
    · next a hbusy => rw [hbusy] at hfree; nomatch hfree
    · rfl

theorem Arrives.exec_dropped {s u : State} {c : Client} {f : FrameIn} (h : Arrives (.frameArrival .portS) s u c f)
    (hf : 0 < f.count) (hbusy : (s.slot c).state.isBusy = true) :
    Machine.exec (.frameArrival .portS) s = .next (u.setSlot c { s.slot c with dropped := true }) := by
  obtain ⟨hrow, -, -⟩ | ⟨-, hwindow, rfl⟩ := h
  · nomatch hrow
  · change Host.Outcome.next s.windowClose = _
    unfold State.windowClose
    rw [hwindow]
    dsimp only
    rw [if_neg (Nat.pos_iff_ne_zero.1 hf)]
    split
    · rfl
    · next hno =>
      cases hstate : (s.slot c).state with
      | busy a => exact absurd hstate (hno a)
      | _ => rw [hstate] at hbusy; nomatch hbusy

/-- Settles O7: the checks are those of `State.frameCheck`, and a frame arrives as `State.frameArrives_refused` and
`State.frameArrives_accepted` say. -/
theorem arrivingFrameIsChecked : Obligations.ArrivingFrameIsChecked := by
  unfold Obligations.ArrivingFrameIsChecked
  refine ⟨⟨State.frameCheck_bytes, fun s c _ _ h => s.frameCheck_badLength c h⟩, fun s u row c f harrives => ?_,
    fun s h => congrArg _ (State.busStop_of_not_writing h), fun s h => congrArg _ (State.windowClose_of_not_command h)⟩
  replace harrives : Arrives row s u c f := harrives
  refine ⟨harrives.exec_empty, fun hf hfree => ⟨fun st hcheck => ?_, fun a hcheck => ?_⟩, ?_⟩
  · rw [harrives.exec hf hfree, State.frameArrives_refused (harrives.slot c ▸ hfree) ((harrives.check c f).trans hcheck),
      harrives.slot]
    obtain ⟨-, -, rfl⟩ | ⟨-, -, rfl⟩ := harrives <;> rfl
  · rw [harrives.exec hf hfree, State.frameArrives_accepted (harrives.slot c ▸ hfree) ((harrives.check c f).trans hcheck),
      harrives.slot, State.keepalive]
    obtain ⟨-, -, rfl⟩ | ⟨-, -, rfl⟩ := harrives <;> split <;> rfl
  · rintro hf hbusy rfl
    exact harrives.exec_dropped hf hbusy

end Sys2Proof.Machine
end

section
/-!
PROOF. The layouts and codes of chapter 10 (O8).
-/

namespace Sys2Proof.Machine

/-! ## Responses and check bytes -/

/-- A remainder taken over itself leaves 0 (R186). -/
theorem crcByte_self (r : Byte) : crcByte r r = 0 := by
  unfold crcByte
  rw [BitVec.xor_self]
  decide

theorem checkValue_append_checkValue (bs : List Byte) : checkValue (bs ++ [checkValue bs]) = 0 := by
  unfold checkValue
  rw [List.foldl_append]
  exact crcByte_self _

theorem Response.bytes_eq (r : Response) :
    r.bytes =
      [0xC3, byteOf (4 + r.body.length), r.status.code, r.tag, r.flags.byte] ++ r.body
        ++ [checkValue (r.bytes.tail.take (4 + r.body.length))] := by
  have hcounted : r.bytes.tail.take (4 + r.body.length) =
      [byteOf (4 + r.body.length), r.status.code, r.tag, r.flags.byte] ++ r.body := by
    change (([byteOf (4 + r.body.length), r.status.code, r.tag, r.flags.byte] ++ r.body) ++ [_]).take _ = _
    exact List.take_left' (by simp; omega)
  rw [hcounted]
  rfl

/-! ## Handles and configurations -/

theorem toNat_byteOf {n : Nat} (h : n < 256) : (byteOf n).toNat = n := Nat.mod_eq_of_lt h

theorem toNat_handleByte (g : Fin 8) (i : Slot) : (handleByte g i).toNat = g.val * 32 + i.val := toNat_byteOf (by omega)

theorem Mode.code_le (m : Mode) : m.code ≤ 4 := by cases m <;> decide

theorem Pull.code_le (p : Pull) : p.code ≤ 2 := by cases p <;> decide

theorem Level.code_le (v : Level) : v.code ≤ 1 := by cases v <;> decide

theorem LineConfig.toNat_byte (k : LineConfig) :
    k.byte.toNat = k.mode.code * 32 + k.pull.code * 8 + k.level.code * 4 := by
  have hm := k.mode.code_le
  have hp := k.pull.code_le
  have hv := k.level.code_le
  exact toNat_byteOf (by omega)

theorem modeOfCode_code (m : Mode) : modeOfCode m.code = some m := by cases m <;> rfl

theorem pullOfCode_code (p : Pull) : pullOfCode p.code = some p := by cases p <;> rfl

theorem modeOfCode_none_iff (n : Nat) : modeOfCode n = none ↔ 5 ≤ n := by
  match n with
  | 0 | 1 | 2 | 3 | 4 => simp [modeOfCode]
  | n + 5 => simp [modeOfCode]

theorem pullOfCode_none_iff (n : Nat) : pullOfCode n = none ↔ 3 ≤ n := by
  match n with
  | 0 | 1 | 2 => simp [pullOfCode]
  | n + 3 => simp [pullOfCode]

/-- Bits 7 to 5 name the mode, 4 and 3 the pull, 2 the level; the others are not examined (R187). -/
theorem configOfByte_byte (k : LineConfig) {n : Nat} (hn : n < 4) : configOfByte (byteOf (k.byte.toNat + n)) = some k := by
  have hm := k.mode.code_le
  have hp := k.pull.code_le
  have hv := k.level.code_le
  have hb : (byteOf (k.byte.toNat + n)).toNat = k.mode.code * 32 + k.pull.code * 8 + k.level.code * 4 + n := by
    rw [k.toNat_byte]
    exact toNat_byteOf (by omega)
  have hmode : (byteOf (k.byte.toNat + n)).toNat / 32 = k.mode.code := by omega
  have hpull : (byteOf (k.byte.toNat + n)).toNat / 8 % 4 = k.pull.code := by omega
  have hbit : (byteOf (k.byte.toNat + n)).getLsbD 2 = decide (k.level.code = 1) := by
    rw [BitVec.getLsbD, Nat.testBit_eq_decide_div_mod_eq]
    exact decide_eq_decide.2 (by omega)
  have hlevel : levelOfBool (decide (k.level.code = 1)) = k.level := by cases k.level <;> rfl
  unfold configOfByte
  rw [hmode, hpull, hbit, modeOfCode_code, pullOfCode_code, hlevel]

theorem configOfByte_none_iff (b : Byte) : configOfByte b = none ↔ 5 ≤ b.toNat / 32 ∨ b.toNat / 8 % 4 = 3 := by
  have hpull : pullOfCode (b.toNat / 8 % 4) = none ↔ b.toNat / 8 % 4 = 3 := by
    rw [pullOfCode_none_iff]
    omega
  rw [← modeOfCode_none_iff, ← hpull]
  unfold configOfByte
  cases modeOfCode (b.toNat / 32) <;> cases pullOfCode (b.toNat / 8 % 4) <;> simp

/-! ## Codes -/

theorem commandOfByte_code (cmd : Command) : commandOfByte cmd.code = some cmd := by cases cmd <;> decide

theorem mem_allCommands (cmd : Command) : cmd ∈ allCommands := by cases cmd <;> decide

theorem code_of_commandOfByte {b : Byte} {cmd : Command} (h : commandOfByte b = some cmd) : cmd.code = b := by
  simpa using List.find?_some h

theorem kindOfByte_iff (b : Byte) (k : Kind) : kindOfByte b = some k ↔ k.code = b := by
  cases k <;> grind [kindOfByte, Kind.code]

theorem partOfByte_iff (b : Byte) (p : Part) : partOfByte b = some p ↔ p.code = b := by
  cases p <;> grind [partOfByte, Part.code]

theorem senseOfByte_iff (b : Byte) (v : Sense) : senseOfByte b = some v ↔ v.code = b := by
  cases v <;> grind [senseOfByte, Sense.code]

theorem referenceOfByte_iff (b : Byte) (r : Reference) : referenceOfByte b = some r ↔ r.code = b := by
  cases r <;> grind [referenceOfByte, Reference.code]

theorem acqTimeOfByte_iff (b : Byte) (a : AcqTime) : acqTimeOfByte b = some a ↔ a.code = b := by
  cases a <;> grind [acqTimeOfByte, AcqTime.code]

theorem levelOfByte_iff (b : Byte) (v : Level) :
    levelOfByte b = some v ↔ b = match v with | .low => 0x00 | .high => 0x01 := by
  cases v <;> grind [levelOfByte]

theorem mayWaitOfByte_iff (b : Byte) (v : Bool) : mayWaitOfByte b = some v ↔ b = if v then 0x01 else 0x00 := by
  cases v <;> grind [mayWaitOfByte]

theorem attentionOfByte_iff (b : Byte) (v : Bool) : attentionOfByte b = some v ↔ b = if v then 0x01 else 0x00 := by
  cases v <;> grind [attentionOfByte]

theorem scopeOfByte_iff (b : Byte) (v : Bool) : scopeOfByte b = some v ↔ b = if v then 0x01 else 0x00 := by
  cases v <;> grind [scopeOfByte]

/-! ## Numbers and masks -/

theorem bytes16_eq {n : Nat} (h : n < 65536) : ∃ hi lo, bytes16 n = [hi, lo] ∧ hi.toNat * 256 + lo.toNat = n := by
  refine ⟨_, _, rfl, ?_⟩
  rw [BitVec.toNat_ofNat, BitVec.toNat_ofNat]
  omega

theorem maskBytes_eq (m : LineSet) :
    ∃ a b c, maskBytes m = [a, b, c] ∧ a.toNat * 65536 + b.toNat * 256 + c.toNat = m.toNat := by
  have h := m.isLt
  refine ⟨_, _, _, rfl, ?_⟩
  rw [BitVec.toNat_ofNat, BitVec.toNat_ofNat, BitVec.toNat_ofNat]
  omega

theorem LineConfig.toNat_byte_table (k : LineConfig) :
    k.byte.toNat =
      (match k.mode with | .input => 0 | .pushPull => 32 | .openDrain => 64 | .pulse => 96 | .analog => 128)
        + (match k.pull with | .none => 0 | .up => 8 | .down => 16) + (match k.level with | .low => 0 | .high => 4) := by
  rw [k.toNat_byte]
  cases k.mode <;> cases k.pull <;> cases k.level <;> rfl

/-- Settles O8, table by table. -/
theorem layoutsAreThoseOfTheTables : Obligations.LayoutsAreThoseOfTheTables := by
  unfold Obligations.LayoutsAreThoseOfTheTables
  refine ⟨⟨Response.bytes_eq, checkValue_append_checkValue, by decide, by decide⟩,
    ⟨rfl, fun cmd => ⟨mem_allCommands cmd, commandOfByte_code cmd⟩, fun b cmd => code_of_commandOfByte, by decide,
      fun g i => ⟨toNat_handleByte g i, handleSlot_handleByte g i, handleGeneration_handleByte g i⟩,
      LineConfig.toNat_byte_table, fun k n hn => configOfByte_byte k hn, configOfByte_none_iff⟩,
    ⟨⟨rfl, kindOfByte_iff⟩, ⟨rfl, partOfByte_iff⟩, ⟨rfl, senseOfByte_iff⟩, ⟨rfl, referenceOfByte_iff⟩,
      ⟨rfl, acqTimeOfByte_iff⟩, levelOfByte_iff, mayWaitOfByte_iff, attentionOfByte_iff, scopeOfByte_iff, rfl, rfl,
      fun b => by cases b <;> rfl⟩,
    ⟨fun n h => bytes16_eq h, maskBytes_eq, fun l m => rfl⟩⟩

end Sys2Proof.Machine
end

section
/-!
PROOF. What every command does (O9), the supervisor's rights (O10), the checks on a handle (O11), and those against the lease
(O60).
-/

namespace Sys2Proof.Machine

/-! ## Answers by the command -/

section
variable {α : Type} {cmd : Command} {c : Client} {s : State} {tag : Byte} {body : List Byte} {chk : Check α}
  {act : α → State × Answer}

/-- A command whose checks refuse answers the refusal. -/
theorem answers_of_error {st : Status} {bytes : List Byte} (hsent : Sent s c cmd tag body)
    (hrun : cmd.reply c body s = answerWith s chk act) (hchk : chk = .error ⟨st, bytes⟩) :
    Answers (cmd.row c) s s c tag st bytes :=
  takeCommand_answers_of_error (exec_commandRow cmd c s) hsent hrun hchk

/-- A command whose checks accept answers with its action. -/
theorem answers_of_ok {x : α} (hsent : Sent s c cmd tag body) (hrun : cmd.reply c body s = answerWith s chk act)
    (hchk : chk = .ok x) (hslot : (act x).1.slot c = s.slot c) :
    Answers (cmd.row c) s (act x).1 c tag (act x).2.status (act x).2.body :=
  takeCommand_answers_of_ok (exec_commandRow cmd c s) hsent hrun hchk hslot

end

/-! ## Every command is answered -/

/-- An outcome of a command of a client: the client's slot is as it was, and unless the status is OK or QUEUED nothing has
changed. -/
def Proper (s : State) (c : Client) (p : State × Answer) : Prop :=
  p.1.slot c = s.slot c ∧ (p.2.status ≠ .ok → p.2.status ≠ .queued → p.1 = s)

section
variable {s : State} {c : Client}

theorem Proper.unchanged (a : Answer) : Proper s c (s, a) := ⟨rfl, fun _ _ => rfl⟩

theorem Proper.accepted {p : State × Answer} (h : p.1.slot c = s.slot c) (hok : p.2.status = .ok) : Proper s c p :=
  ⟨h, fun hne => absurd hok hne⟩

theorem Proper.answerWith {α : Type} {chk : Check α} {act : α → State × Answer} (h : Gives chk fun x => Proper s c (act x)) :
    Proper s c (answerWith s chk act) := by
  obtain ⟨a, -, hrefused⟩ | ⟨x, hx, hacted⟩ := answerWith_cases s chk act
  · rw [hrefused]
    exact .unchanged a
  · rw [hacted]
    exact h x hx

theorem State.slot_teardown (s : State) (n c : Client) (reason : LastEnd) : (s.teardown n reason).slot c = s.slot c :=
  s.slot_retireAll _ c

theorem State.slot_dismissed (s : State) {n c : Client} (hn : c ≠ n) (reason : LastEnd) :
    ((s.teardown n reason).emptySlot n).slot c = s.slot c := by
  rw [State.slot_emptySlot, if_neg hn, State.slot_teardown]

theorem State.slot_entomb (s : State) (i : Slot) (r : EndReason) (c : Client) : (s.entomb i r).slot c = s.slot c :=
  s.slot_undoEntry i c

theorem State.LeasesOnly.slot {s t : State} (h : s.LeasesOnly t) (c : Client) : t.slot c = s.slot c := by
  rw [h]
  rfl

/-- The end of a session with the scan after it: ATTACH. -/
theorem State.slot_closeOldSession (s : State) (c d : Client) : (s.closeOldSession d).slot c = s.slot c := by
  unfold State.closeOldSession
  split
  · rw [State.slot_grantScan, State.slot_teardown]
  · rfl

theorem State.slot_clearAll (s : State) (c : Client) : (s.clearAll c).slot c = s.slot c := by
  have hclients : ((s.clearedClients c).foldl State.clearClient s).slot c = s.slot c := by
    refine List.foldlRecOn (s.clearedClients c) State.clearClient (motive := fun t => t.slot c = s.slot c) rfl
      fun t ht n hn => ?_
    have hne : c ≠ n := by
      simp only [State.clearedClients, List.mem_filter, Bool.and_eq_true, decide_eq_true_eq] at hn
      exact Ne.symm hn.2.1
    exact (t.slot_dismissed hne .cleared).trans ht
  exact (State.slot_grantScan _ c).trans ((State.slot_retireAll _ _ c).trans hclients)

theorem State.fetch_proper (s : State) (c : Client) : Proper s c (s.fetch c) := by
  unfold State.fetch
  split
  · exact .accepted rfl rfl
  · split
    · exact .accepted rfl rfl
    · exact .unchanged _

theorem acquireReply_proper (c : Client) (body : List Byte) (s : State) : Proper s c (acquireReply c body s) := by
  refine .answerWith fun p _ => ?_
  dsimp only
  split
  · exact .accepted (s.slot_grantLease p.2 (p.1.claim c) p.1.configs p.1.pulse p.1.due c) rfl
  · split
    · exact ⟨rfl, fun _ h => absurd rfl h⟩
    · exact .unchanged _

theorem evictReply_proper (c : Client) (body : List Byte) (s : State) : Proper s c (evictReply c body s) := by
  refine .answerWith (.bind fun _ _ => .bind fun n _ => .bind fun _ hne => .ok ?_)
  split
  · have hne : c ≠ n := Ne.symm (by simpa using ensure_true_of_ok hne)
    exact .accepted ((State.slot_grantScan _ c).trans (s.slot_dismissed hne .evicted)) rfl
  · exact .unchanged _

theorem handOverReply_proper (c : Client) (body : List Byte) (s : State) : Proper s c (handOverReply c body s) := by
  refine .answerWith (.of_forall fun n => .accepted ?_ rfl)
  dsimp only
  split <;> rfl

theorem Command.reply_proper (cmd : Command) (c : Client) (body : List Byte) (s : State) :
    Proper s c (cmd.reply c body s) := by
  cases cmd with
  | attach => exact .answerWith (.of_forall fun p => .accepted (s.slot_closeOldSession c c) rfl)
  | detach => exact .answerWith (.of_forall fun _ => .accepted ((State.slot_grantScan _ c).trans (s.slot_teardown ..)) rfl)
  | setAttention => exact .answerWith (.of_forall fun _ => .accepted rfl rfl)
  | ping => exact .answerWith (.of_forall fun _ => .unchanged _)
  | acquire => exact acquireReply_proper c body s
  | cancel => exact .answerWith (.of_forall fun i => .accepted ((State.slot_grantScan _ c).trans (s.slot_retire i c)) rfl)
  | release => exact .answerWith (.of_forall fun i => .accepted ((State.slot_grantScan _ c).trans (s.slot_retire i c)) rfl)
  | renew => exact .answerWith (.of_forall fun _ => .accepted rfl rfl)
  | acknowledge => exact .answerWith (.of_forall fun p => .accepted (s.slot_retire p.1 c) rfl)
  | reconfigure => exact .answerWith (.of_forall fun _ => .accepted rfl rfl)
  | describe => exact .answerWith (.of_forall fun _ => .unchanged _)
  | list => exact .answerWith (.of_forall fun _ => .unchanged _)
  | writeLevels => exact .answerWith (.of_forall fun _ => .accepted rfl rfl)
  | readLevels => exact .answerWith (.of_forall fun _ => .unchanged _)
  | setWatch => exact .answerWith (.of_forall fun _ => .accepted rfl rfl)
  | clearWatch => exact .answerWith (.of_forall fun _ => .accepted rfl rfl)
  | setPulse => exact .answerWith (.of_forall fun _ => .accepted rfl rfl)
  | convert => exact .answerWith (.of_forall fun r => .accepted ((s.requestConversion_leasesOnly r).slot c) rfl)
  | fetchNotice => exact .answerWith (.of_forall fun _ => s.fetch_proper c)
  | revoke =>
    exact .answerWith (.of_forall fun p => .accepted ((State.slot_grantScan _ c).trans (s.slot_entomb p.1 .revoked c)) rfl)
  | fence => exact .answerWith (.of_forall fun _ => .accepted rfl rfl)
  | unfence => exact .answerWith (.of_forall fun _ => .accepted (State.slot_grantScan _ c) rfl)
  | setIdlePlan => exact .answerWith (.of_forall fun _ => .accepted rfl rfl)
  | evict => exact evictReply_proper c body s
  | handOver => exact handOverReply_proper c body s
  | setTick => exact .answerWith (.of_forall fun _ => .accepted rfl rfl)
  | clearAll => exact .answerWith (.of_forall fun _ => .accepted (s.slot_clearAll c) rfl)
  | survey => exact .answerWith (.of_forall fun _ => .unchanged _)
  | setConverter => exact .answerWith (.of_forall fun _ => .accepted rfl rfl)

end

/-- Settles O9: a response is written over what the command's action leaves (`Command.reply_proper`). -/
theorem everyCommandIsAnswered : Obligations.EveryCommandIsAnswered := by
  unfold Obligations.EveryCommandIsAnswered
  refine ⟨fun s t c cmd tag body hsent h => ?_, fun s c cmd hnone => ?_⟩
  · obtain ⟨hslot, hsame⟩ := cmd.reply_proper c body s
    rw [exec_commandRow, takeCommand_sent cmd cmd.reply c s tag body hsent, State.respond_eq, hslot] at h
    obtain rfl := Host.Outcome.next.inj h
    refine ⟨_, _, by rw [State.slot_setSlot, if_pos rfl]; rfl, fun hok hqueued => ?_⟩
    rw [State.slot_setSlot, if_pos rfl, hsame hok hqueued]
  · rw [exec_commandRow, takeCommand_absent cmd cmd.reply c s hnone]

/-! ## The supervisor's rights -/

theorem State.needSupervisor_bind_of_ne {α : Type} {s : State} {c : Client} (h : s.supervisor ≠ c) (f : Unit → Check α) :
    (s.needSupervisor c >>= f) = .error ⟨.notSupervisor, []⟩ := by
  have hno : s.needSupervisor c = .error ⟨.notSupervisor, []⟩ := by simp [State.needSupervisor, h]
  rw [hno]
  rfl

theorem State.needSupervisor_bind {α : Type} {s : State} {c : Client} (h : s.supervisor = c) (f : Unit → Check α) :
    (s.needSupervisor c >>= f) = f () := by
  have hyes : s.needSupervisor c = .ok () := by simp [State.needSupervisor, h]
  rw [hyes]
  rfl

/-- Settles O10: the checks of each supervisor command begin with its rights. -/
theorem supervisorRightsComeFirst : Obligations.SupervisorRightsComeFirst := by
  unfold Obligations.SupervisorRightsComeFirst
  refine ⟨fun s c cmd tag body hcmd hne hsent => ?_, fun s c tag hne hsent => ?_⟩
  · simp only [supervisorCommands, List.mem_cons, List.not_mem_nil, or_false] at hcmd
    obtain rfl | rfl | rfl | rfl | rfl | rfl | rfl | rfl | rfl | rfl := hcmd
    all_goals exact answers_of_error hsent rfl (State.needSupervisor_bind_of_ne hne _)
  · have hrefused : s.listChecks c [0x01] = .error ⟨.notSupervisor, []⟩ := by
      simp [State.listChecks, hne]
    exact answers_of_error (cmd := .list) hsent rfl hrefused

/-! ## Checks on a handle -/

/-- The answer of a check that refuses. -/
def refusalOf {α : Type} : Check α → Option Answer
  | .error a => some a
  | .ok _ => none

theorem refusalOf_eq_some {α : Type} {x : Check α} {a : Answer} (h : refusalOf x = some a) : x = .error a := by
  cases x with
  | error b => exact congrArg _ (Option.some.inj h)
  | ok => nomatch h

/-- The refusal of a lease command by the state of the entry that it names (R26 to R28, R36 to R42). -/
def EntryBody.refusal (b : EntryBody) : Command → Option Answer
  | .cancel => refusalOf b.needWaiting
  | .acknowledge => refusalOf b.needEnded
  | .reconfigure | .writeLevels | .setPulse => refusalOf b.needExclusive
  | .release | .renew | .readLevels | .setWatch | .clearWatch | .convert => refusalOf b.needHeld
  | .revoke => refusalOf b.needLive
  | _ => none

/-- The client may name an entry of another: a REVOKE, or a DESCRIBE of the supervisor (R20, R39, R42). -/
def State.excepted (s : State) (c : Client) : Command → Bool
  | .revoke => true
  | .describe => s.supervisor = c
  | _ => false

/-- The command goes on to resolve the handle, and then to the checks of the entry's state. -/
def State.ResolvesFirst (s : State) (c : Client) (cmd : Command) (h : Byte) (body : List Byte) : Prop :=
  ∃ (β : Type) (chk : Check β) (act : β → State × Answer) (f : Slot → Check β),
    cmd.reply c body s = answerWith s chk act ∧ chk = (s.resolve c (s.excepted c cmd) h >>= f) ∧
      ∀ i a, (s.entry i).body.refusal cmd = some a → f i = .error a

theorem check_bind_of_refusal {α β : Type} {x : Check α} {f : α → Check β} {a : Answer} (h : refusalOf x = some a) :
    (x >>= f) = .error a := by
  rw [refusalOf_eq_some h]
  rfl

theorem check_bind_of_ok {α β : Type} {x : Check α} {a : α} (h : x = .ok a) (f : α → Check β) : (x >>= f) = f a := by
  rw [h]
  rfl

/-- The body of a lease command that passes the argument checks: the handle is resolved next, then the entry's state. -/
theorem NamesHandle.resolvesFirst {s : State} {c : Client} {cmd : Command} {h : Byte} {body : List Byte}
    (hbody : NamesHandle cmd h body) (hc : cmd = .revoke → s.supervisor = c) : s.ResolvesFirst c cmd h body := by
  obtain ⟨rest, rfl, hkind⟩ := hbody
  obtain ⟨hbare, rfl⟩ | ⟨rfl, x, hx⟩ | ⟨rfl, x, hx⟩ | ⟨rfl, x, hx⟩ | ⟨rfl, x, hx⟩ | ⟨rfl, x, hx⟩ | ⟨rfl, x, hx⟩ |
    ⟨rfl, p, rfl⟩ := hkind
  · simp only [bareHandleCommands, List.mem_cons, List.not_mem_nil, or_false] at hbare
    obtain rfl | rfl | rfl | rfl | rfl | rfl := hbare
    · exact ⟨_, _, _, _, rfl, rfl, fun i a => check_bind_of_refusal⟩
    · exact ⟨_, _, _, _, rfl, rfl, fun i a => check_bind_of_refusal⟩
    · exact ⟨_, _, _, _, rfl, rfl, fun i a => check_bind_of_refusal⟩
    · exact ⟨_, _, _, _, rfl, rfl, fun i a => refusalOf_eq_some⟩
    · exact ⟨_, _, _, _, rfl, rfl, fun i a => check_bind_of_refusal⟩
    · exact ⟨_, _, _, _, rfl, State.needSupervisor_bind (hc rfl) _, fun i a => check_bind_of_refusal⟩
  · exact ⟨_, _, _, _, rfl, check_bind_of_ok hx _, fun i a => check_bind_of_refusal⟩
  · exact ⟨_, _, _, _, rfl, check_bind_of_ok hx _, fun i a => check_bind_of_refusal⟩
  · exact ⟨_, _, _, _, rfl, check_bind_of_ok hx _, fun i a => check_bind_of_refusal⟩
  · exact ⟨_, _, _, _, rfl, check_bind_of_ok hx _, fun i a => check_bind_of_refusal⟩
  · exact ⟨_, _, _, _, rfl, check_bind_of_ok hx _, fun i a => check_bind_of_refusal⟩
  · exact ⟨_, _, _, _, rfl, check_bind_of_ok hx _, fun i a => check_bind_of_refusal⟩
  · exact ⟨_, _, _, _, rfl, check_bind_of_ok (a := p) (by cases p <;> rfl) _, nofun⟩

theorem handleSlot_eq {h : Byte} {i : Slot} (hi : i.val = h.toNat % 32) : handleSlot h = i := Fin.ext hi.symm

theorem handleGeneration_val (h : Byte) : (handleGeneration h).val = h.toNat / 32 := by
  have := h.isLt
  exact Nat.mod_eq_of_lt (by omega)

/-- A handle of a FREE entry, or of another generation, is stale (R20). -/
theorem State.resolve_stale {s : State} {c : Client} (ex : Bool) {h : Byte}
    (hstale : (s.entry (handleSlot h)).body = .free ∨ (s.entry (handleSlot h)).generation ≠ handleGeneration h) :
    s.resolve c ex h = .error ⟨.staleHandle, []⟩ := by
  cases hclaim : (s.entry (handleSlot h)).body.claim with
  | none => simp [State.resolve, hclaim, refuse]
  | some cl =>
    obtain hfree | hgen := hstale
    · rw [hfree] at hclaim
      nomatch hclaim
    · simp [State.resolve, hclaim, hgen]

/-- A handle of another client's entry is refused (R20). -/
theorem State.resolve_notOwner {s : State} {c : Client} {ex : Bool} {h : Byte} {cl : Claim}
    (hclaim : (s.entry (handleSlot h)).body.claim = some cl)
    (hgen : (s.entry (handleSlot h)).generation = handleGeneration h) (howner : cl.owner ≠ c) (hex : ex = false) :
    s.resolve c ex h = .error ⟨.notOwner, []⟩ := by
  simp [State.resolve, hclaim, hgen, howner, hex]

theorem State.resolve_ok {s : State} {c : Client} {ex : Bool} {h : Byte} {cl : Claim}
    (hclaim : (s.entry (handleSlot h)).body.claim = some cl)
    (hgen : (s.entry (handleSlot h)).generation = handleGeneration h) (hserved : cl.owner = c ∨ ex = true) :
    s.resolve c ex h = .ok (handleSlot h) := by
  have hcheck : (decide (cl.owner = c) || ex) = true := by simpa using hserved
  simp [State.resolve, hclaim, hgen, hcheck]

section
variable {s : State} {c : Client} {cmd : Command} {tag h : Byte} {body : List Byte}

theorem State.ResolvesFirst.answers_resolve (hres : s.ResolvesFirst c cmd h body) (hsent : Sent s c cmd tag body)
    {st : Status} (hrefused : s.resolve c (s.excepted c cmd) h = .error ⟨st, []⟩) :
    Answers (cmd.row c) s s c tag st [] := by
  obtain ⟨β, chk, act, f, hrun, hchk, -⟩ := hres
  exact answers_of_error hsent hrun (by rw [hchk, hrefused]; rfl)

/-- The entry's state refuses a command whose handle resolves (R26 to R28). -/
theorem State.ResolvesFirst.answers_refusal (hres : s.ResolvesFirst c cmd h body) (hsent : Sent s c cmd tag body)
    {cl : Claim} (hclaim : (s.entry (handleSlot h)).body.claim = some cl)
    (hgen : (s.entry (handleSlot h)).generation = handleGeneration h) (hserved : cl.owner = c ∨ s.excepted c cmd = true)
    {st : Status} {bytes : List Byte} (hrefused : (s.entry (handleSlot h)).body.refusal cmd = some ⟨st, bytes⟩) :
    Answers (cmd.row c) s s c tag st bytes := by
  obtain ⟨β, chk, act, f, hrun, hchk, hf⟩ := hres
  exact answers_of_error hsent hrun
    (by rw [hchk, State.resolve_ok hclaim hgen hserved]; exact hf _ _ hrefused)

end

/-- The lease commands whose body names a handle. -/
theorem NamesHandle.mem {cmd : Command} {h : Byte} {body : List Byte} (hbody : NamesHandle cmd h body) :
    cmd ∈ [Command.cancel, .release, .acknowledge, .readLevels, .clearWatch, .revoke, .renew, .reconfigure, .writeLevels,
      .setWatch, .setPulse, .convert, .describe] := by
  obtain ⟨rest, -, hkind⟩ := hbody
  obtain ⟨hbare, -⟩ | ⟨rfl, -⟩ | ⟨rfl, -⟩ | ⟨rfl, -⟩ | ⟨rfl, -⟩ | ⟨rfl, -⟩ | ⟨rfl, -⟩ | ⟨rfl, -⟩ := hkind
  · exact List.mem_append_left [Command.renew, .reconfigure, .writeLevels, .setWatch, .setPulse, .convert, .describe] hbare
  all_goals simp

/-- No lease command but CANCEL, DESCRIBE and REVOKE applies to a waiting entry (R26). -/
theorem EntryBody.refusal_waiting (cl : Claim) (w : Waiting) {cmd : Command} {h : Byte} {body : List Byte}
    (hbody : NamesHandle cmd h body) (hcmd : cmd ∉ [Command.cancel, .describe, .revoke]) :
    (EntryBody.waiting cl w).refusal cmd = some ⟨.wrongState, [0x01, cl.kind.code]⟩ := by
  have hmem := hbody.mem
  cases cmd with
  | cancel | describe | revoke => simp at hcmd
  | attach | detach | setAttention | ping | acquire | list | fetchNotice | fence | unfence | setIdlePlan | evict | handOver
  | setTick | clearAll | survey | setConverter => simp at hmem
  | _ => rfl

/-- CANCEL and ACKNOWLEDGE do not apply to a HELD lease, and to a SHARED one none that needs an EXCLUSIVE one (R27). -/
theorem EntryBody.refusal_held (cl : Claim) (hd : Held) {cmd : Command}
    (hcmd : cmd = .cancel ∨ cmd = .acknowledge ∨
      (cl.kind = .shared ∧ cmd ∈ [Command.reconfigure, .writeLevels, .setPulse])) :
    (EntryBody.held cl hd).refusal cmd = some ⟨.wrongState, [0x02, cl.kind.code]⟩ := by
  obtain rfl | rfl | ⟨hkind, hmem⟩ := hcmd
  · rfl
  · rfl
  · have hrefused : (EntryBody.held cl hd).needExclusive = .error ⟨.wrongState, [0x02, cl.kind.code]⟩ := by
      have hne : cl.kind ≠ .exclusive := by rw [hkind]; nofun
      exact if_neg hne
    simp only [List.mem_cons, List.not_mem_nil, or_false] at hmem
    obtain rfl | rfl | rfl := hmem
    all_goals exact congrArg refusalOf hrefused

/-- No lease command but ACKNOWLEDGE, DESCRIBE and REVOKE applies to a tombstone (R28). -/
theorem EntryBody.refusal_ended (cl : Claim) (t : Tombstone) {cmd : Command} {h : Byte} {body : List Byte}
    (hbody : NamesHandle cmd h body) (hcmd : cmd ∉ [Command.acknowledge, .describe, .revoke]) :
    (EntryBody.ended cl t).refusal cmd = some ⟨.ended, [t.reason.code]⟩ := by
  have hmem := hbody.mem
  cases cmd with
  | acknowledge | describe | revoke => simp at hcmd
  | attach | detach | setAttention | ping | acquire | list | fetchNotice | fence | unfence | setIdlePlan | evict | handOver
  | setTick | clearAll | survey | setConverter => simp at hmem
  | _ => rfl

theorem oneByte_of_length_ne {body : List Byte} (h : body.length ≠ 1) : oneByte body = .error ⟨.badArgument, []⟩ := by
  match body with
  | [] => rfl
  | [_] => exact absurd rfl h
  | _ :: _ :: _ => rfl

theorem twoBytes_of_length_ne {body : List Byte} (h : body.length ≠ 2) : twoBytes body = .error ⟨.badArgument, []⟩ := by
  match body with
  | [] => rfl
  | [_] => rfl
  | [_, _] => exact absurd rfl h
  | _ :: _ :: _ :: _ => rfl

theorem partOfByte_none {b : Byte} (h : 4 < b.toNat) : partOfByte b = none := by
  rw [Option.eq_none_iff_forall_ne_some]
  intro p hp
  rw [← (partOfByte_iff b p).1 hp] at h
  cases p <;> nomatch h

theorem check_bind_of_error {α β : Type} {x : Check α} {a : Answer} (h : x = .error a) (f : α → Check β) :
    (x >>= f) = .error a := by
  rw [h]
  rfl

theorem bareHandle_answers {s : State} {c : Client} {cmd : Command} {tag : Byte} {body : List Byte}
    (hsent : Sent s c cmd tag body) (hcmd : cmd ∈ bareHandleCommands) (hc : cmd = .revoke → s.supervisor = c)
    (hbody : body.length ≠ 1) : Answers (cmd.row c) s s c tag .badArgument [] := by
  have hbyte := oneByte_of_length_ne hbody
  have hsole : s.soleHandle c body = .error ⟨.badArgument, []⟩ := check_bind_of_error hbyte _
  simp only [bareHandleCommands, List.mem_cons, List.not_mem_nil, or_false] at hcmd
  obtain rfl | rfl | rfl | rfl | rfl | rfl := hcmd
  · exact answers_of_error hsent rfl (check_bind_of_error hsole _)
  · exact answers_of_error hsent rfl (check_bind_of_error hsole _)
  · exact answers_of_error hsent rfl (check_bind_of_error hsole _)
  · exact answers_of_error hsent rfl (check_bind_of_error hsole _)
  · exact answers_of_error hsent rfl (check_bind_of_error hsole _)
  · exact answers_of_error hsent rfl ((State.needSupervisor_bind (hc rfl) _).trans (check_bind_of_error hbyte _))

theorem describe_answers_badArgument {s : State} {c : Client} {tag : Byte} {body : List Byte}
    (hsent : Sent s c .describe tag body)
    (hbody : body.length ≠ 2 ∨ ∃ h part, body = [h, part] ∧ 4 < part.toNat) :
    Answers (.describe c) s s c tag .badArgument [] := by
  obtain hlength | ⟨h, part, rfl, hpart⟩ := hbody
  · exact answers_of_error (cmd := .describe) hsent rfl (check_bind_of_error (twoBytes_of_length_ne hlength) _)
  · have hneed : need (partOfByte part) .badArgument = .error ⟨.badArgument, []⟩ := by rw [partOfByte_none hpart]; rfl
    exact answers_of_error (cmd := .describe) hsent rfl (check_bind_of_error hneed _)

/-- Settles O11: the handle is resolved, and the entry's state examined, as soon as the body is (`State.ResolvesFirst`). -/
theorem handleChecksComeInOrder : Obligations.HandleChecksComeInOrder := by
  unfold Obligations.HandleChecksComeInOrder
  refine ⟨fun s c cmd tag h body i hsent hbody hc hi => ?_, fun s c cmd tag body hsent =>
    ⟨bareHandle_answers hsent, fun hcmd hbad => ?_⟩⟩
  · obtain rfl := handleSlot_eq hi
    have hres := hbody.resolvesFirst (s := s) hc
    have hgen_iff : (s.entry (handleSlot h)).generation = handleGeneration h ↔
        (s.entry (handleSlot h)).generation.val = h.toNat / 32 := by rw [Fin.ext_iff, handleGeneration_val]
    refine ⟨fun hstale => hres.answers_resolve hsent (State.resolve_stale _ (hstale.imp_right (mt hgen_iff.1))), fun hgen => ?_⟩
    rw [← hgen_iff] at hgen
    have claim_of {b : EntryBody} {cl : Claim} (hb : (s.entry (handleSlot h)).body = b) (hcl : b.claim = some cl) :
        (s.entry (handleSlot h)).body.claim = some cl := hb ▸ hcl
    refine ⟨fun cl hclaim howner hrevoke hdescribe => ?_, fun cl w hb howner hcmd => ?_, fun cl hd hb howner hcmd => ?_,
      fun cl t hb howner hcmd => ?_, fun cl t hb hcmd => ?_⟩
    · refine hres.answers_resolve hsent (State.resolve_notOwner hclaim hgen howner ?_)
      cases cmd with
      | revoke => exact absurd rfl hrevoke
      | describe => exact decide_eq_false (hdescribe rfl)
      | _ => rfl
    · exact hres.answers_refusal hsent (claim_of hb rfl) hgen (.inl howner) (hb ▸ EntryBody.refusal_waiting cl w hbody hcmd)
    · exact hres.answers_refusal hsent (claim_of hb rfl) hgen (.inl howner) (hb ▸ EntryBody.refusal_held cl hd hcmd)
    · exact hres.answers_refusal hsent (claim_of hb rfl) hgen (.inl howner) (hb ▸ EntryBody.refusal_ended cl t hbody hcmd)
    · subst hcmd
      exact hres.answers_refusal hsent (claim_of hb rfl) hgen (.inr rfl) (by rw [hb]; rfl)
  · subst hcmd
    exact describe_answers_badArgument hsent hbad

/-! ## Checks against the lease -/

theorem ensure_of_not {p : Prop} [Decidable p] (h : ¬p) (st : Status) : ensure (decide p) st = .error ⟨st, []⟩ := by
  simp [h]

theorem ensure_of_true {b : Bool} (h : b = true) (st : Status) : ensure b st = .ok () := by simp [h]

theorem ensure_of_false {b : Bool} (h : b = false) (st : Status) : ensure b st = .error ⟨st, []⟩ := by simp [h]

theorem needLines_ok {α : Type} {cl : Claim} {ps : List (Line × α)} (h : ∀ p ∈ ps, p.1 ∈ cl.lines) :
    needLines cl (ps.map Prod.fst) = .ok () :=
  ensure_of_true (by simpa using fun l x hx => h (l, x) hx) _

theorem needLines_error {α : Type} {cl : Claim} {ps : List (Line × α)} (h : ∃ p ∈ ps, p.1 ∉ cl.lines) :
    needLines cl (ps.map Prod.fst) = .error ⟨.badLines, []⟩ := by
  obtain ⟨p, hp, hout⟩ := h
  refine ensure_of_false ?_ _
  simp only [List.all_map, List.all_eq_false, Function.comp_apply, List.contains_eq_mem, decide_eq_true_eq]
  exact ⟨p, hp, hout⟩

theorem EntryBody.needHeld_of {b : EntryBody} {cl : Claim} {hd : Held} (h : b = .held cl hd) : b.needHeld = .ok (cl, hd) := by
  rw [h]
  rfl

theorem EntryBody.needExclusive_ok {cl : Claim} {hd : Held} (hkind : cl.kind = .exclusive) :
    (EntryBody.held cl hd).needExclusive = .ok (cl, hd) := if_pos hkind

section
variable {s : State} {c : Client} {h : Byte} {i : Slot} {cl : Claim} {hd : Held} {rest : List Byte}
  (hn : Names s c h i) (hbody : (s.entry i).body = .held cl hd)
include hn hbody

theorem State.reconfigureChecks_eq (hkind : cl.kind = .exclusive) {ps : LineConfigs} (hps : reconfigurePairs rest = .ok ps) :
    s.reconfigureChecks c (h :: rest) = (needLines cl (ps.map Prod.fst) >>= fun _ =>
      ensure (ps.all fun p => !isPulseIn hd.configs p.1) .mode >>= fun _ => pure (i, cl, hd, ps)) :=
  (check_bind_of_ok hps _).trans ((check_bind_of_ok (s.resolve_names c false h i hn) _).trans
    (check_bind_of_ok (hbody ▸ EntryBody.needExclusive_ok hkind) _))

theorem State.writeLevelsChecks_eq (hkind : cl.kind = .exclusive) {ps : List (Line × Level)}
    (hps : levelPairs rest = .ok ps) :
    s.writeLevelsChecks c (h :: rest) = (needLines cl (ps.map Prod.fst) >>= fun _ =>
      ensure (ps.all fun p => takesLevel hd.configs p.1) .mode >>= fun _ => pure (i, cl, hd, ps)) :=
  (check_bind_of_ok hps _).trans ((check_bind_of_ok (s.resolve_names c false h i hn) _).trans
    (check_bind_of_ok (hbody ▸ EntryBody.needExclusive_ok hkind) _))

theorem State.setWatchChecks_eq {filter : Nat} {ps : List (Line × Sense)} (hps : watchRequest rest = .ok (filter, ps)) :
    s.setWatchChecks c (h :: rest) = (needLines cl (ps.map Prod.fst) >>= fun _ => pure (i, cl, hd, filter, ps)) :=
  (check_bind_of_ok hps _).trans ((check_bind_of_ok (s.resolve_names c false h i hn) _).trans
    (check_bind_of_ok (EntryBody.needHeld_of hbody) _))

theorem State.convertChecks_eq {l : Line} {n : Nat} (hreq : convertRequest rest = .ok (l, n)) :
    s.convertChecks c (h :: rest) = (needLines cl [l] >>= fun _ => ensure (s.effective[l].mode = .analog) .mode >>= fun _ =>
      ensure (hd.conv = .none) .busy >>= fun _ => ensure (decide (s.convQueue.length < 8)) .queueFull >>= fun _ =>
        pure ⟨i, l, n⟩) :=
  (check_bind_of_ok hreq _).trans ((check_bind_of_ok (s.resolve_names c false h i hn) _).trans
    (check_bind_of_ok (EntryBody.needHeld_of hbody) _))

theorem State.setPulseChecks_eq (hkind : cl.kind = .exclusive) {r : PulseRequest} (hreq : pulseRequest rest = .ok r) :
    s.setPulseChecks c (h :: rest) = (need hd.pulse .mode >>= fun g =>
      ensure (match r.highs with | none => true | some hs => decide (hs.length = (pulseLines hd.configs).length))
        .badArgument >>= fun _ =>
      ensure ((r.setting g.setting).highs.all fun x => decide (x ≤ (r.setting g.setting).period)) .badArgument >>= fun _ =>
        pure (i, cl, hd, g, r)) :=
  (check_bind_of_ok hreq _).trans ((check_bind_of_ok (s.resolve_names c false h i hn) _).trans
    (check_bind_of_ok (hbody ▸ EntryBody.needExclusive_ok hkind) _))

end

theorem isPulseIn_iff (configs : LineConfigs) (l : Line) :
    isPulseIn configs l = true ↔ ∃ k, configFor configs l = some k ∧ k.mode = .pulse := by
  unfold isPulseIn
  cases configFor configs l <;> simp

theorem takesLevel_false_iff (configs : LineConfigs) (l : Line) :
    takesLevel configs l = false ↔ ∀ k, configFor configs l = some k → k.mode ≠ .pushPull ∧ k.mode ≠ .openDrain := by
  unfold takesLevel
  cases configFor configs l <;> simp

/-- Settles O60: stage 5 of each command's checks (`State.reconfigureChecks_eq` and its fellows). -/
theorem holderCommandsCheckTheLease : Obligations.HolderCommandsCheckTheLease := by
  unfold Obligations.HolderCommandsCheckTheLease
  intro s c tag h rest i cl hd hn hbody
  refine ⟨fun ps hkind hsent hps => ?_, fun ps hkind hsent hps => ?_, fun filter ps hsent hps hout => ?_,
    fun l n hsent hreq hout => ?_, fun r hkind hsent hreq => ?_⟩
  · have hchk := State.reconfigureChecks_eq hn hbody hkind hps
    refine ⟨fun hout => ?_, fun hin ⟨p, hp, hpulse⟩ => ?_⟩
    · exact answers_of_error (cmd := .reconfigure) hsent rfl (hchk.trans (check_bind_of_error (needLines_error hout) _))
    · refine answers_of_error (cmd := .reconfigure) hsent rfl
        (hchk.trans ((check_bind_of_ok (needLines_ok hin) _).trans (check_bind_of_error (ensure_of_false ?_ _) _)))
      rw [List.all_eq_false]
      exact ⟨p, hp, by simp [(isPulseIn_iff _ _).2 hpulse]⟩
  · have hchk := State.writeLevelsChecks_eq hn hbody hkind hps
    refine ⟨fun hout => ?_, fun hin ⟨p, hp, hno⟩ => ?_⟩
    · exact answers_of_error (cmd := .writeLevels) hsent rfl (hchk.trans (check_bind_of_error (needLines_error hout) _))
    · refine answers_of_error (cmd := .writeLevels) hsent rfl
        (hchk.trans ((check_bind_of_ok (needLines_ok hin) _).trans (check_bind_of_error (ensure_of_false ?_ _) _)))
      rw [List.all_eq_false]
      exact ⟨p, hp, by simp [(takesLevel_false_iff _ _).2 hno]⟩
  · exact answers_of_error (cmd := .setWatch) hsent rfl
      ((State.setWatchChecks_eq hn hbody hps).trans (check_bind_of_error (needLines_error hout) _))
  · refine answers_of_error (cmd := .convert) hsent rfl
      ((State.convertChecks_eq hn hbody hreq).trans (check_bind_of_error (ensure_of_false ?_ _) _))
    simpa using hout
  · have hchk := State.setPulseChecks_eq hn hbody hkind hreq
    refine ⟨fun hnone => ?_, fun g hg hbad => ?_⟩
    · exact answers_of_error (cmd := .setPulse) hsent rfl (hchk.trans (by rw [hnone]; rfl))
    · rw [hg, need_some, check_ok_bind] at hchk
      refine answers_of_error (cmd := .setPulse) hsent rfl (hchk.trans ?_)
      by_cases hcount : (match r.highs with
          | none => true
          | some hs => decide (hs.length = (pulseLines hd.configs).length)) = true
      · refine (check_bind_of_ok (ensure_of_true hcount _) _).trans (check_bind_of_error (ensure_of_false ?_ _) _)
        obtain ⟨hs, hhs, hlen⟩ | ⟨n, hmem, hlt⟩ := hbad
        · rw [hhs] at hcount
          exact absurd (of_decide_eq_true hcount) hlen
        · rw [List.all_eq_false]
          exact ⟨n, hmem, by simpa using (show (r.setting g.setting).period < n from hlt)⟩
      · exact check_bind_of_error (ensure_of_false (Bool.eq_false_iff.2 hcount) _) _

end Sys2Proof.Machine
end

section
/-!
PROOF. The plain commands: settings (O32, O33), sessions and supervision (O12, O13, O15), and the commands that report (O25,
O26).
-/

namespace Sys2Proof.Machine

/-! ## Codes that name no value -/

theorem Answers.congr {row : Instr} {s u u' : State} {c : Client} {tag : Byte} {st st' : Status} {bytes bytes' : List Byte}
    (h : Answers row s u c tag st bytes) (hu : u = u') (hst : st = st') (hbytes : bytes = bytes') :
    Answers row s u' c tag st' bytes' := by
  subst hu hst hbytes
  exact h

/-- A byte above every code names no value. -/
theorem code_none {α : Type} {f : Byte → Option α} {code : α → Byte} {n : Nat} (h : ∀ b v, f b = some v → b = code v)
    (hle : ∀ v, (code v).toNat ≤ n) {b : Byte} (hb : n < b.toNat) : f b = none := by
  rw [Option.eq_none_iff_forall_ne_some]
  intro v hv
  have := hle v
  rw [← h b v hv] at this
  omega

theorem need_error {α : Type} {x : Option α} (h : x = none) (st : Status) : need x st = .error ⟨st, []⟩ := by
  rw [h]
  rfl

theorem need_ok {α : Type} {x : Option α} {a : α} (h : x = some a) (st : Status) : need x st = .ok a := by
  rw [h]
  rfl

/-- A body that is not one byte, or whose byte is refused. -/
theorem oneByte_bind_error {β : Type} {k : Byte → Check β} {body : List Byte}
    (h : body.length ≠ 1 ∨ ∃ b, body = [b] ∧ k b = .error ⟨.badArgument, []⟩) :
    (oneByte body >>= k) = .error ⟨.badArgument, []⟩ := by
  obtain hlength | ⟨b, rfl, hk⟩ := h
  · exact check_bind_of_error (oneByte_of_length_ne hlength) k
  · exact hk

theorem attentionOfByte_none {b : Byte} (h : 1 < b.toNat) : attentionOfByte b = none :=
  code_none (fun b v => (attentionOfByte_iff b v).1) (by decide) h

theorem scopeOfByte_none {b : Byte} (h : 1 < b.toNat) : scopeOfByte b = none :=
  code_none (fun b v => (scopeOfByte_iff b v).1) (by decide) h

theorem referenceOfByte_none {b : Byte} (h : 1 < b.toNat) : referenceOfByte b = none :=
  code_none (fun b v hv => ((referenceOfByte_iff b v).1 hv).symm) (fun v => by cases v <;> decide) h

theorem acqTimeOfByte_none {b : Byte} (h : 3 < b.toNat) : acqTimeOfByte b = none :=
  code_none (fun b v hv => ((acqTimeOfByte_iff b v).1 hv).symm) (fun v => by cases v <;> decide) h

theorem byteOf_toNat (b : Byte) : byteOf b.toNat = b := BitVec.eq_of_toNat_eq (toNat_byteOf b.isLt)

theorem clientOfByte_byteOf (n : Client) : clientOfByte (byteOf n.val) = some n := by
  have hn : (byteOf n.val).toNat = n.val := toNat_byteOf (by omega)
  unfold clientOfByte
  simp [hn]

theorem tickRateOfByte_byteOf (r : Fin 8) : tickRateOfByte (byteOf r.val) = some r := clientOfByte_byteOf r

/-- A body that is no client number, nor a tick rate's. -/
theorem oneNumber_error {body : List Byte} (h : ∀ n : Fin 8, body ≠ [byteOf n.val]) :
    clientBody body = .error ⟨.badArgument, []⟩ := by
  refine oneByte_bind_error ?_
  match body with
  | [] => exact .inl nofun
  | [b] =>
    refine .inr ⟨b, rfl, need_error ?_ _⟩
    refine dif_neg fun hb => h ⟨b.toNat, hb⟩ ?_
    rw [byteOf_toNat]
  | _ :: _ :: _ => exact .inl (by simp)

theorem clientBody_byteOf (n : Client) : clientBody [byteOf n.val] = .ok n := need_ok (clientOfByte_byteOf n) _

theorem emptyBody_error {body : List Byte} (h : body ≠ []) : emptyBody body = .error ⟨.badArgument, []⟩ :=
  ensure_of_false (by simpa using h) _

/-! ## The settings of the supervisor -/

/-- Settles O32. -/
theorem tickRateIsSet : Obligations.TickRateIsSet := by
  unfold Obligations.TickRateIsSet
  intro s c tag body hsent
  refine ⟨fun hne => ?_, fun hc r hbody => ?_, fun hc hbody => ?_⟩
  · exact answers_of_error (cmd := .setTick) hsent rfl (State.needSupervisor_bind_of_ne hne _)
  · subst hbody
    exact answers_of_ok (cmd := .setTick) (x := r) hsent rfl
      ((State.needSupervisor_bind hc _).trans (need_ok (tickRateOfByte_byteOf r) _)) rfl
  · exact answers_of_error (cmd := .setTick) hsent rfl
      ((State.needSupervisor_bind hc _).trans (oneNumber_error hbody))

/-- The settings that two codes of SET CONVERTER name. -/
theorem State.setConverterChecks_eq {s : State} {c : Client} (hc : s.supervisor = c) {x y : Byte} {r : Reference} {a : AcqTime}
    (hr : r.code = x) (ha : a.code = y) : s.setConverterChecks c [x, y] = .ok (r, a) :=
  (State.needSupervisor_bind hc _).trans
    ((check_bind_of_ok (need_ok ((referenceOfByte_iff _ r).2 hr) _) _).trans
      (check_bind_of_ok (need_ok ((acqTimeOfByte_iff _ a).2 ha) _) _))

/-- Settles O33. -/
theorem converterIsSet : Obligations.ConverterIsSet := by
  unfold Obligations.ConverterIsSet
  refine ⟨fun s c tag r a hc hsent => ?_, fun s c tag body hc hsent hbody => ?_⟩
  · refine (answers_of_ok (cmd := .setConverter) (x := (r, a)) hsent rfl (State.setConverterChecks_eq hc ?_ ?_) rfl).congr
      rfl rfl ?_
    · cases r <;> rfl
    · cases a <;> rfl
    · cases r <;> cases a <;> rfl
  · refine answers_of_error (cmd := .setConverter) hsent rfl ((State.needSupervisor_bind hc _).trans ?_)
    obtain hlength | ⟨x, y, rfl, hx | hy⟩ := hbody
    · exact check_bind_of_error (twoBytes_of_length_ne hlength) _
    · exact check_bind_of_error (need_error (referenceOfByte_none hx) _) _
    · cases hr : referenceOfByte x with
      | none => exact check_bind_of_error (need_error hr _) _
      | some r =>
        exact (check_bind_of_ok (need_ok hr _) _).trans (check_bind_of_error (need_error (acqTimeOfByte_none hy) _) _)

/-! ## PING, SET ATTENTION and HAND OVER -/

theorem attentionOfByte_code (enabled : Bool) : attentionOfByte (if enabled then 0x01 else 0x00) = some enabled :=
  (attentionOfByte_iff _ _).2 rfl

/-- Settles O15. -/
theorem pingAttentionAndHandOver : Obligations.PingAttentionAndHandOver := by
  unfold Obligations.PingAttentionAndHandOver
  refine ⟨⟨fun s c tag body hsent => ?_, fun s c tag enabled hsent => ?_, fun s c tag body hsent hbody => ?_⟩,
    fun s c tag body hc hsent hbody => ?_, fun s c n tag hsent hc => ⟨fun hn hne => ?_, fun hn heq => ?_, fun hn => ?_⟩⟩
  · split
    · next hnil =>
      subst hnil
      exact answers_of_ok (cmd := .ping) (chk := emptyBody []) (act := fun _ => (s, okWith [])) hsent rfl rfl rfl
    · next hne => exact answers_of_error (cmd := .ping) hsent rfl (emptyBody_error hne)
  · exact (answers_of_ok (cmd := .setAttention) hsent rfl (need_ok (attentionOfByte_code enabled) _) rfl).congr rfl rfl rfl
  · exact answers_of_error (cmd := .setAttention) hsent rfl (oneByte_bind_error (hbody.imp_right
      fun ⟨b, hb, h⟩ => ⟨b, hb, need_error (attentionOfByte_none h) _⟩))
  · exact answers_of_error (cmd := .handOver) hsent rfl ((State.needSupervisor_bind hc _).trans
      (check_bind_of_error (oneNumber_error hbody) _))
  · refine (answers_of_ok (cmd := .handOver) (x := n) hsent rfl ((State.needSupervisor_bind hc _).trans
      ((check_bind_of_ok (clientBody_byteOf n) _).trans (check_bind_of_ok (ensure_of_true hn _) _))) ?_).congr
      (if_neg hne) rfl rfl
    dsimp only
    rw [if_neg hne]
    rfl
  · refine (answers_of_ok (cmd := .handOver) (x := n) hsent rfl ((State.needSupervisor_bind hc _).trans
      ((check_bind_of_ok (clientBody_byteOf n) _).trans (check_bind_of_ok (ensure_of_true hn _) _))) ?_).congr
      (if_pos heq) rfl rfl
    dsimp only
    rw [if_pos heq]
  · exact answers_of_error (cmd := .handOver) hsent rfl ((State.needSupervisor_bind hc _).trans
      ((check_bind_of_ok (clientBody_byteOf n) _).trans (check_bind_of_error (ensure_of_false hn _) _)))

/-! ## DETACH and EVICT -/

theorem PortIState.afterEmptying_eq (p : PortIState) (n : Client) :
    p.afterEmptying n =
      { p with bus := match p.bus with | .reading k r => .reading k (if k = n then ⟨[], false⟩ else r) | b => b } := by
  obtain ⟨bus, acked, out⟩ := p
  unfold PortIState.afterEmptying
  cases bus with
  | reading k r => by_cases hk : k = n <;> simp [hk, ReadOut.cut]
  | _ => rfl

theorem PortSState.afterEmptying_eq (p : PortSState) (n : Client) :
    p.afterEmptying n =
      { p with window := match p.window with | .fetch k r => .fetch k (if k = n then ⟨[], false⟩ else r) | w => w } := by
  obtain ⟨window, out⟩ := p
  unfold PortSState.afterEmptying
  cases window with
  | fetch k r => by_cases hk : k = n <;> simp [hk, ReadOut.cut]
  | _ => rfl

theorem State.emptySlot_eq (s : State) (n : Client) :
    s.emptySlot n = { s with
      slots := s.slots.set n ⟨.none, false, false⟩
      portI := { s.portI with
        bus := match s.portI.bus with | .reading k r => .reading k (if k = n then ⟨[], false⟩ else r) | b => b }
      portS := { s.portS with
        window := match s.portS.window with | .fetch k r => .fetch k (if k = n then ⟨[], false⟩ else r) | w => w } } := by
  unfold State.emptySlot
  rw [PortIState.afterEmptying_eq, PortSState.afterEmptying_eq]
  rfl

/-- A read of a client's slot that is emptied gives FFh from then on. -/
theorem State.emptySlot_readClock (s : State) {n : Client} {r : ReadOut} (h : s.portI.bus = .reading n r) :
    (s.emptySlot n).readClock =
      { s.emptySlot n with portI := ⟨.reading n ⟨[], false⟩, s.portI.acked, s.portI.out ++ [0xFF]⟩ } := by
  have hbus : (s.emptySlot n).portI.bus = .reading n ⟨[], false⟩ := by
    simp [State.emptySlot_eq, h]
  rw [State.readClock_reading hbus]
  simp [State.emptySlot_eq, ReadOut.shift]

/-- The same of a fetch window, whatever the host sends. -/
theorem State.emptySlot_windowByte (s : State) {n : Client} {r : ReadOut} (h : s.portS.window = .fetch n r) (b : Byte) :
    (s.emptySlot n).windowByte b =
      { s.emptySlot n with portS := ⟨.fetch n ⟨[], false⟩, s.portS.out ++ [0xFF]⟩ } := by
  have hwindow : (s.emptySlot n).portS.window = .fetch n ⟨[], false⟩ := by
    simp [State.emptySlot_eq, h]
  rw [State.windowByte_fetch hwindow]
  simp [State.emptySlot_eq, ReadOut.shift]

theorem State.evictChecks_ok {s : State} {c n : Client} (hc : s.supervisor = c) (hn : n ≠ c) :
    s.evictChecks c [byteOf n.val] = .ok n :=
  (State.needSupervisor_bind hc _).trans
    ((check_bind_of_ok (clientBody_byteOf n) _).trans (check_bind_of_ok (ensure_of_true (decide_eq_true hn) _) _))

/-- EVICT, with its two cases. -/
theorem evictReply_eq (s : State) (c n : Client) :
    evictReply c [byteOf n.val] s = answerWith s (s.evictChecks c [byteOf n.val]) fun n =>
      if (s.client n).attached then (s.evict n, okWith [1, byteOf (s.ownedSlots n).length]) else (s, okWith [0, 0]) := rfl

/-- Settles O13. -/
theorem detachAndEvictEndSessions : Obligations.DetachAndEvictEndSessions := by
  unfold Obligations.DetachAndEvictEndSessions
  refine ⟨fun s c tag body hsent => ⟨fun hnil => ?_, fun hne => ?_⟩, fun s c tag body hc hsent hbody => ?_,
    fun s c n tag hsent hc => ⟨fun hne hn => ?_, fun hne hn => ?_, fun heq => ?_⟩, fun s n => ⟨?_, fun r hr => ?_,
    fun r b hr => ?_⟩⟩
  · subst hnil
    exact answers_of_ok (cmd := .detach) (chk := emptyBody [])
      (act := fun _ => (((s.teardown c .detached).grantScan).settleAttention, okWith [])) hsent rfl rfl
      ((State.slot_grantScan _ c).trans (s.slot_teardown c c .detached))
  · exact answers_of_error (cmd := .detach) hsent rfl (emptyBody_error hne)
  · exact answers_of_error (cmd := .evict) hsent rfl ((State.needSupervisor_bind hc _).trans
      (check_bind_of_error (oneNumber_error hbody) _))
  · refine (answers_of_ok (cmd := .evict) hsent (evictReply_eq s c n) (State.evictChecks_ok hc hne) ?_).congr
      (congrArg Prod.fst (if_pos hn)) (congrArg (Answer.status ∘ Prod.snd) (if_pos hn))
      (congrArg (Answer.body ∘ Prod.snd) (if_pos hn))
    exact (congrArg (fun p : State × Answer => p.1.slot c) (if_pos hn)).trans
      ((State.slot_grantScan _ c).trans (s.slot_dismissed (Ne.symm hne) .evicted))
  · have hoff : ¬(s.client n).attached = true := by simp [hn]
    refine (answers_of_ok (cmd := .evict) hsent (evictReply_eq s c n) (State.evictChecks_ok hc hne) ?_).congr
      (congrArg Prod.fst (if_neg hoff)) (congrArg (Answer.status ∘ Prod.snd) (if_neg hoff))
      (congrArg (Answer.body ∘ Prod.snd) (if_neg hoff))
    exact congrArg (fun p : State × Answer => p.1.slot c) (if_neg hoff)
  · exact answers_of_error (cmd := .evict) hsent rfl ((State.needSupervisor_bind hc _).trans
      ((check_bind_of_ok (clientBody_byteOf n) _).trans
        (check_bind_of_error (ensure_of_false (decide_eq_false fun h => h heq) _) _)))
  · exact s.emptySlot_eq n
  · exact congrArg Host.Outcome.next (s.emptySlot_readClock hr)
  · exact congrArg Host.Outcome.next (s.emptySlot_windowByte hr b)

/-! ## ATTACH -/

/-- A grant leaves each entry its owner (R68). -/
theorem State.grantScan_ownedLe (s : State) : s.OwnedLe s.grantScan :=
  s.grantScan_keeps s.OwnedLe (fun t _ i cl w h hb _ => h.trans
    (.of_entry i (t.entry i).generation _ (fun j => (State.entry_grantLease ..).trans rfl) fun d hd => by rw [hb]; exact hd))
    (.of_entries rfl)

theorem State.grantScan_leasesOnly (s : State) : s.LeasesOnly s.grantScan :=
  s.grantScan_keeps s.LeasesOnly (fun t _ i cl w h _ _ => (h.trans (u := t.leaveWaitList i) (Eq.refl _)).trans
    (State.grantLease_leasesOnly (t.leaveWaitList i) i cl w.configs w.pulse w.due)) (Eq.refl s)

/-- A client without a client reason that owns nothing has no notice (R154). -/
theorem State.hasNotice_of_none {s : State} {c : Client} (hg : s.gained[c] = none)
    (hown : ∀ i, (s.entry i).body.ownedBy c = false) : s.hasNotice c = false := by
  rw [Bool.eq_false_iff]
  intro h
  obtain hgained | ⟨i, hi, -⟩ := (s.hasNotice_iff c).1 h
  · rw [hg] at hgained
    exact nomatch hgained
  · exact absurd hi (by simp [hown i])

theorem State.not_ownedBy_of_nil {s : State} {c : Client} (h : s.ownedSlots c = []) (i : Slot) :
    (s.entry i).body.ownedBy c = false := by
  rw [Bool.eq_false_iff]
  intro hi
  exact List.not_mem_nil (h ▸ (s.mem_ownedSlots c i).2 hi)

theorem State.client_closeOldSession (s : State) (c : Client) :
    (s.closeOldSession c).client c =
      if (s.client c).attached then (s.client c).ended .reattached else s.client c := by
  unfold State.closeOldSession
  split
  · have hscan : ((s.teardown c .reattached).grantScan).clients = (s.teardown c .reattached).clients := by
      rw [State.grantScan_leasesOnly]
    have hretired : (s.retireAll (s.ownedSlots c)).client c = s.client c :=
      State.retireAll_keeps (fun t => t.client c = s.client c)
        (fun t i h => by unfold State.client; rw [t.retire_leasesOnly i]; exact h) _ s rfl
    unfold State.client
    rw [hscan, State.teardown_eq]
    refine (State.client_endSession _ c c .reattached).trans ?_
    rw [if_pos rfl, hretired]
    rfl
  · rfl

/-- After the end of an old session its client owns nothing and has no notice (R160, R167). -/
theorem State.closeOldSession_hasNotice {s : State} (hs : SessionLaw s) (c : Client) :
    (s.closeOldSession c).hasNotice c = false := by
  unfold State.closeOldSession
  split
  · refine State.hasNotice_of_none ?_ fun i => ?_
    · rw [State.grantScan_leasesOnly]
      exact vector_set_self _ c none
    · rw [Bool.eq_false_iff]
      intro hi
      exact absurd ((State.grantScan_ownedLe _) i c hi) (by
        rw [show (s.teardown c .reattached).entry i = (s.retireAll (s.ownedSlots c)).entry i from rfl,
          State.not_ownedBy_of_nil (s.ownedSlots_retireAll c) i]
        exact Bool.false_ne_true)
  · next hoff =>
    obtain ⟨hown, hgained, -⟩ := (hs c).2.2 (Bool.eq_false_iff.2 hoff)
    exact State.hasNotice_of_none hgained (State.not_ownedBy_of_nil hown)

theorem threeBytes_of_length_ne {body : List Byte} (h : body.length ≠ 3) : threeBytes body = .error ⟨.badArgument, []⟩ := by
  match body with
  | [] => rfl
  | [_] => rfl
  | [_, _] => rfl
  | [_, _, _] => exact absurd rfl h
  | _ :: _ :: _ :: _ :: _ => rfl

theorem attachRequest_eq (hi lo : Byte) (enabled : Bool) :
    attachRequest [hi, lo, if enabled then 0x01 else 0x00] = .ok (number16 hi lo, enabled) :=
  (check_bind_of_ok (rfl : threeBytes _ = .ok (hi, lo, _)) _).trans
    (check_bind_of_ok (need_ok (attentionOfByte_code enabled) _) _)

/-- The response of ATTACH, of the session record before. -/
theorem reportedLastEnd_eq (cause : ResetCause) (r : ClientRecord) :
    reportedLastEnd cause (if r.attached then r.ended .reattached else r).lastEnd =
      if r.attached then 0x05 else
        match r.lastEnd with
        | .noneYet => if cause = .powerOn then 0x00 else 0x06
        | .detached => 0x01
        | .timedOut => 0x02
        | .evicted => 0x03
        | .cleared => 0x04
        | .reattached => 0x05 := by
  by_cases h : r.attached = true
  · rw [if_pos h, if_pos h]
    rfl
  · rw [if_neg h, if_neg h]
    cases r.lastEnd <;> cases cause <;> rfl

theorem State.client_openSession (s : State) (c : Client) (timeout : Nat) (attention : Bool) :
    (s.openSession c timeout attention).client c = ((s.closeOldSession c).client c).opened timeout attention :=
  (State.client_setClient ..).trans (if_pos rfl)

theorem State.closeOldSession_cause (s : State) (c : Client) :
    (s.closeOldSession c).cause = s.cause ∧ (s.closeOldSession c).supervisor = s.supervisor := by
  unfold State.closeOldSession
  split
  · have hretired : (s.teardown c .reattached).cause = s.cause ∧ (s.teardown c .reattached).supervisor = s.supervisor :=
      State.retireAll_keeps (fun t => t.cause = s.cause ∧ t.supervisor = s.supervisor)
        (fun t i h => by rw [t.retire_leasesOnly i]; exact h) _ s ⟨rfl, rfl⟩
    rw [State.grantScan_leasesOnly]
    exact hretired
  · exact ⟨rfl, rfl⟩

/-- Settles O12. -/
theorem attachOpensSession : Obligations.AttachOpensSession := by
  unfold Obligations.AttachOpensSession
  refine ⟨fun s c tag body hsent hbody => ?_, fun s v c tag hi lo enabled hsent hv => ?_⟩
  · refine answers_of_error (cmd := .attach) hsent rfl ?_
    obtain hlength | ⟨hi, lo, a, rfl, ha⟩ := hbody
    · exact check_bind_of_error (threeBytes_of_length_ne hlength) _
    · exact check_bind_of_error (need_error (attentionOfByte_none ha) _) _
  · subst hv
    have hrecord := s.client_closeOldSession c
    refine ⟨?_, fun hs => s.closeOldSession_hasNotice hs c⟩
    obtain ⟨hcause, hsupervisor⟩ := s.closeOldSession_cause c
    have hepoch : ((s.closeOldSession c).client c).epoch = (s.client c).epoch := by
      rw [hrecord]
      split <;> rfl
    refine (answers_of_ok (cmd := .attach) hsent rfl (attachRequest_eq hi lo enabled)
      (s.slot_closeOldSession c c)).congr ?_ rfl ?_
    · unfold State.openSession ClientRecord.opened number16
      rw [hepoch]
      rfl
    · have hclient := s.client_openSession c (number16 hi lo) enabled
      have hstate : (s.openSession c (number16 hi lo) enabled).attachBody c =
          [((s.closeOldSession c).client c).epoch + 1, (s.closeOldSession c).cause.code,
            reportedLastEnd (s.closeOldSession c).cause ((s.closeOldSession c).client c).lastEnd,
            byteOf (s.closeOldSession c).supervisor.val, Config.partCode, Config.revision] := by
        unfold State.attachBody
        rw [hclient]
        rfl
      refine hstate.trans ?_
      rw [hepoch, hcause, hsupervisor, hrecord, reportedLastEnd_eq]
      have hcode : s.cause.code = match s.cause with | .powerOn => 0x01 | .resetPin => 0x02 | .supplyLow => 0x03 := by
        cases s.cause <;> rfl
      rw [hcode]
      rfl

end Sys2Proof.Machine
end

section
/-!
PROOF. The commands that report (O25, O26), RENEW (O24), and the commands that end an entry (O23).
-/

namespace Sys2Proof.Machine

/-! ## A handle and the entry that it names -/

section
variable {s : State} {c : Client} {h : Byte} {i : Slot}

theorem State.soleHandle_ok (hn : Names s c h i) : s.soleHandle c [h] = .ok i := s.resolve_names c false h i hn

/-- The checks of a lease command after its handle: what the rest of the body gives, then the entry. -/
theorem resolved_bind {α β : Type} {x : Check α} {a : α} {k : α → Slot → Check β} {ex : Bool} (hx : x = .ok a)
    (hn : Names s c h i) :
    (x >>= fun a => s.resolve c ex h >>= fun j => k a j) = k a i :=
  (check_bind_of_ok hx _).trans (check_bind_of_ok (s.resolve_names c ex h i hn) _)

end

/-! ## The commands that report -/

/-- One line of LIST with scope ALL. -/
theorem Entry.listByte_eq (e : Entry) :
    e.listByte = byteOf (e.body.stateCode * 64 + e.body.ownerNumber * 8 + e.generation.val) := by
  unfold Entry.listByte EntryBody.ownerNumber
  cases e.body.claim <;> rfl

theorem Held.watchedLine_eq (h : Held) (l : Line) :
    h.watchedLine l = h.watch.bind fun w => w.lines.find? fun x => x.line = l := by
  unfold Held.watchedLine
  cases h.watch <;> rfl

theorem levelReport_eq (last : Level) (w : Option WatchedLine) :
    levelReport last w =
      match w with
      | none => byteOf last.code
      | some x => byteOf (last.code + 2 + 4 * x.stable.code) := by
  cases w with
  | none => rfl
  | some x => exact congrArg (fun n => byteOf (last.code + 2 + n)) (Nat.mul_comm ..)

theorem bankLines_byteOf {bank : Nat} (h : bank < 3) :
    bankLines (byteOf bank) = some (allLines.filter fun l => l.val / 8 = bank) := by
  have hb : (byteOf bank).toNat = bank := toNat_byteOf (by omega)
  unfold bankLines
  rw [hb, if_pos h]

theorem bankLines_none {b : Byte} (h : 2 < b.toNat) : bankLines b = none := if_neg (by omega)

/-- LIST with a scope code that is not ALL, or is sent by the supervisor. -/
theorem State.listChecks_eq {s : State} {c : Client} {body : List Byte} (h : body ≠ [1] ∨ s.supervisor = c) :
    s.listChecks c body = oneByte body >>= fun b => need (scopeOfByte b) .badArgument := by
  refine check_bind_of_ok (ensure_of_true ?_ _) _
  simpa using h

theorem describeBody_eq (p : Part) (content : Option (List Byte)) :
    describeBody p content =
      match content with
      | none => [p.code, 0x00]
      | some bytes => [p.code, 0x01] ++ bytes := by
  cases content <;> rfl

/-- Settles O25. -/
theorem reportsChangeNothing : Obligations.ReportsChangeNothing := by
  unfold Obligations.ReportsChangeNothing
  refine ⟨fun s c tag body => ⟨fun hsent hbody => ?_, fun hc hsent hbody => ?_⟩, fun s c tag i part cl hclaim hserved hsent => ?_,
    fun s c tag hsent => ?_, fun s c tag hc hsent => ?_, fun s c tag h i cl hd hn hbody hsent => ?_,
    fun s c tag bank hbank hc hsent => ?_⟩
  · have hne : body ≠ [1] := by
      rintro rfl
      obtain hlength | ⟨b, hb, hlt⟩ := hbody
      · exact hlength rfl
      · obtain rfl := List.singleton_inj.1 hb
        exact absurd hlt (by decide)
    exact answers_of_error (cmd := .list) hsent rfl ((State.listChecks_eq (.inl hne)).trans (oneByte_bind_error
      (hbody.imp_right fun ⟨b, hb, hlt⟩ => ⟨b, hb, need_error (scopeOfByte_none hlt) _⟩)))
  · exact answers_of_error (cmd := .survey) hsent rfl ((State.needSupervisor_bind hc _).trans (oneByte_bind_error
      (hbody.imp_right fun ⟨b, hb, hlt⟩ => ⟨b, hb, check_bind_of_error (need_error (bankLines_none hlt) _) _⟩)))
  · have hserved' : cl.owner = c ∨ decide (s.supervisor = c) = true := hserved.imp_right decide_eq_true
    exact (answers_of_ok (cmd := .describe) (x := (i, part)) hsent rfl
      ((check_bind_of_ok (need_ok ((partOfByte_iff _ part).2 rfl) _) _).trans
        (check_bind_of_ok (s.resolve_own c _ i cl hclaim hserved') _)) rfl).congr rfl rfl (describeBody_eq ..)
  · have hown : s.listChecks c [0x00] = .ok false := State.listChecks_eq (.inl (by decide))
    exact answers_of_ok (cmd := .list) (act := fun all => (s, okWith (s.listBody c all))) hsent rfl hown rfl
  · exact (answers_of_ok (cmd := .list) (x := true) hsent rfl (State.listChecks_eq (.inr hc)) rfl).congr rfl rfl
      (List.map_congr_left fun i _ => (s.entry i).listByte_eq)
  · refine (answers_of_ok (cmd := .readLevels) (x := (cl, hd)) hsent rfl
      ((check_bind_of_ok (State.soleHandle_ok hn) _).trans (EntryBody.needHeld_of hbody)) rfl).congr rfl rfl
      (congrArg (List.cons _) ?_)
    refine congrArg (fun f => cl.lines.flatMap f) (funext fun l => ?_)
    rw [levelReport_eq, Held.watchedLine_eq] <;> rfl
  · exact (answers_of_ok (cmd := .survey) (x := (byteOf bank, allLines.filter fun l => l.val / 8 = bank)) hsent rfl
      ((State.needSupervisor_bind hc _).trans (check_bind_of_ok (need_ok (bankLines_byteOf hbank) _) _)) rfl).congr rfl rfl rfl

/-! ## The parts of DESCRIBE -/

theorem State.describeRecord_waiting {s : State} {i : Slot} {cl : Claim} {w : Waiting} (h : (s.entry i).body = .waiting cl w) :
    s.describeRecord i = [0x01, byteOf cl.owner.val, cl.kind.code] ++ bytes16 cl.term ++ [0, 0]
      ++ bytes16 (w.due.getD 0)
      ++ (match w.wait with | none => [0, 0, 0, 0] | some wl => bytes16 wl.limit ++ bytes16 wl.remaining)
      ++ [byteOf (s.waitList.idxOf i + 1), 0, 0, if w.pulse.isSome then 0x04 else 0x00] := by
  unfold State.describeRecord
  rw [h]
  obtain ⟨configs, pulse, due, wait, arrival⟩ := w
  cases wait <;> cases pulse <;> simp [recordHead, optional16Bytes, bytes16, presentByte, State.waitPosition, EntryBody.stateCode, byteOf]

theorem State.describeRecord_held {s : State} {i : Slot} {cl : Claim} {h : Held} (hbody : (s.entry i).body = .held cl h) :
    s.describeRecord i = [0x02, byteOf cl.owner.val, cl.kind.code] ++ bytes16 cl.term ++ bytes16 h.remaining
      ++ bytes16 (h.due.getD 0) ++ [0, 0, 0, 0, 0, 0]
      ++ [match h.conv with | .none => 0x00 | .queued => 0x01 | .inFlight => 0x02,
          byteOf ((if h.watch.isSome then 1 else 0) + (if h.result.isSome then 2 else 0) + (if h.pulse.isSome then 4 else 0)
            + match h.pulse with | none => 0 | some g => if g.update.isSome then 8 else 0)] := by
  unfold State.describeRecord
  rw [hbody]
  obtain ⟨configs, pulse, remaining, due, watch, conv, result⟩ := h
  cases conv <;> cases pulse <;> rfl

theorem State.describeRecord_ended {s : State} {i : Slot} {cl : Claim} {t : Tombstone} (h : (s.entry i).body = .ended cl t) :
    s.describeRecord i = [0x03, byteOf cl.owner.val, cl.kind.code] ++ bytes16 cl.term
      ++ [0, 0, 0, 0, 0, 0, 0, 0, 0, t.reason.code, 0, if t.result.isSome then 0x02 else 0x00] := by
  unfold State.describeRecord
  rw [h]
  obtain ⟨reason, result⟩ := t
  cases result <;> rfl

/-- The record is 17 bytes long, whatever the entry. -/
theorem State.length_describeRecord {s : State} {i : Slot} {cl : Claim} (h : (s.entry i).body.claim = some cl) :
    (s.describeRecord i).length = 17 := by
  unfold State.describeRecord
  cases hbody : (s.entry i).body with
  | free =>
    rw [hbody] at h
    nomatch h
  | waiting cl w => rfl
  | held cl hd => rfl
  | ended cl t => rfl

theorem Held.generatorByte_eq (h : Held) (l : Line) :
    generatorByte h.generatorLines l =
      match h.pulse.bind (fun g => ((pulseLines h.configs).zip g.generators).lookup l) with
      | none => 0xFF
      | some g => byteOf g.val := by
  obtain ⟨configs, pulse, remaining, due, watch, conv, result⟩ := h
  unfold generatorByte
  cases pulse with
  | none => rfl
  | some g =>
    change (match ((pulseLines configs).zip g.generators).lookup l with | some g => byteOf g.val | none => 0xFF) =
      match ((pulseLines configs).zip g.generators).lookup l with | none => 0xFF | some g => byteOf g.val
    cases ((pulseLines configs).zip g.generators).lookup l <;> rfl

theorem ConvResult.lineStatusValue_eq (r : ConvResult) :
    r.lineStatusValue = [byteOf r.line.val,
      byteOf ((match r.status with | .ok => 0 | .disturbed => 1 | .modeLost => 2) + if r.overrun then 128 else 0)]
      ++ bytes16 (r.value.getD 0) := by
  obtain ⟨line, value, status, overrun⟩ := r
  cases status <;> rfl

/-- One line of part WATCH. -/
theorem describeWatch_held (cl : Claim) (h : Held) :
    (EntryBody.held cl h).describeWatch = h.watch.map (fun w =>
      [byteOf w.filter, byteOf w.lines.length] ++ w.lines.flatMap fun x =>
        [byteOf x.line.val, match x.sense with | .rising => 0x01 | .falling => 0x02 | .both => 0x03,
          match x.stable with | .low => 0x00 | .high => 0x01, byteOf x.run]) := by
  have hline : ∀ x : WatchedLine, [byteOf x.line.val, x.sense.code, byteOf x.stable.code, byteOf x.run] =
      [byteOf x.line.val, match x.sense with | .rising => 0x01 | .falling => 0x02 | .both => 0x03,
        match x.stable with | .low => 0x00 | .high => 0x01, byteOf x.run] := by
    rintro ⟨line, sense, stable, run⟩
    cases sense <;> cases stable <;> rfl
  exact congrArg (fun f => h.watch.map fun w => [byteOf w.filter, byteOf w.lines.length] ++ w.lines.flatMap f) (funext hline)

theorem describePulse_held (cl : Claim) (h : Held) :
    (EntryBody.held cl h).describePulse = h.pulse.map (fun g =>
      [byteOf g.setting.divider] ++ bytes16 g.setting.period ++ [byteOf g.setting.highs.length]
        ++ g.setting.highs.flatMap bytes16
        ++ match g.update with
          | none => [0x00]
          | some u =>
            [byteOf (128 + (if u.dividerGiven then 1 else 0) + (if u.periodGiven then 2 else 0) + if u.highsGiven then 4 else 0),
              byteOf u.setting.divider] ++ bytes16 u.setting.period ++ u.setting.highs.flatMap bytes16) := by
  refine congrArg (fun f => h.pulse.map f) (funext fun g => ?_)
  obtain ⟨setting, generators, update⟩ := g
  cases update <;> rfl

/-- Settles O26. -/
theorem describeHasItsLayout : Obligations.DescribeHasItsLayout := by
  unfold Obligations.DescribeHasItsLayout
  refine ⟨fun s i cl w hbody => ⟨congrArg some (State.describeRecord_waiting hbody), congrArg some ?_, ?_, ?_⟩,
    fun s i cl h hbody => ⟨congrArg some (State.describeRecord_held hbody), ?_, ?_, fun hkind => congrArg some ?_,
      fun hkind => congrArg some ?_⟩,
    fun s i cl t hbody => ⟨congrArg some (State.describeRecord_ended hbody), congrArg some ?_, ?_, ?_⟩, fun s i => ?_,
    fun s i cl hclaim => ⟨_, rfl, State.length_describeRecord hclaim⟩⟩
  · rw [hbody]
    obtain ⟨owner, kind, lines, term⟩ := cl
    cases kind <;> rfl
  · exact congrArg EntryBody.describePulse hbody
  · exact congrArg EntryBody.describeWatch hbody
  · exact (congrArg EntryBody.describePulse hbody).trans (describePulse_held cl h)
  · exact (congrArg EntryBody.describeWatch hbody).trans (describeWatch_held cl h)
  · rw [hbody]
    simp only [EntryBody.describeLines, hkind]
    rfl
  · rw [hbody]
    simp only [EntryBody.describeLines, hkind]
    refine congrArg (List.cons _) (congrArg (fun f => h.configs.flatMap f) (funext fun p => ?_))
    rw [Held.generatorByte_eq] <;> rfl
  · exact congrArg EntryBody.describeLines hbody
  · exact congrArg EntryBody.describePulse hbody
  · exact congrArg EntryBody.describeWatch hbody
  · exact congrArg (fun f => (s.entry i).body.result.map f) (funext ConvResult.lineStatusValue_eq)

/-! ## RENEW -/

theorem bytes16_number16 (hi lo : Byte) : bytes16 (number16 hi lo) = [hi, lo] := by
  have hlo := lo.isLt
  have hhi : BitVec.ofNat 8 (number16 hi lo / 256) = hi := by
    refine BitVec.eq_of_toNat_eq ?_
    have := hi.isLt
    rw [BitVec.toNat_ofNat, number16]
    omega
  have hlow : BitVec.ofNat 8 (number16 hi lo) = lo := by
    refine BitVec.eq_of_toNat_eq ?_
    rw [BitVec.toNat_ofNat, number16]
    omega
  unfold bytes16
  rw [hhi, hlow]

/-- A due mark that is absent reads 0 (R190). -/
theorem bytes16_getD (n : Option Nat) : bytes16 (n.getD 0) = match n with | none => [0, 0] | some d => bytes16 d := by
  cases n <;> rfl

theorem renewTerm_term {th tl : Byte} (h : number16 th tl ≠ 0) : renewTerm [th, tl] = .ok (some (number16 th tl, none)) :=
  check_bind_of_ok (ensure_of_true (decide_eq_true (Nat.one_le_iff_ne_zero.2 h)) _) _

theorem renewTerm_due {th tl dh dl : Byte} (h : number16 dh dl ≠ 0) (hlt : number16 dh dl < number16 th tl) :
    renewTerm [th, tl, dh, dl] = .ok (some (number16 th tl, some (number16 dh dl))) :=
  (check_bind_of_ok (ensure_of_true (decide_eq_true (by omega)) _) _).trans
    (check_bind_of_ok (ensure_of_true (decide_eq_true ⟨by omega, hlt⟩) _) _)

/-- The bodies of RENEW that its first stage refuses (R84). -/
theorem renewTerm_error {rest : List Byte}
    (h : rest.length ∉ [0, 2, 4] ∨ (∃ th tl, rest = [th, tl] ∧ number16 th tl = 0) ∨
      ∃ th tl dh dl, rest = [th, tl, dh, dl] ∧ (number16 dh dl = 0 ∨ number16 th tl ≤ number16 dh dl)) :
    renewTerm rest = .error ⟨.badArgument, []⟩ := by
  obtain hlength | ⟨th, tl, rfl, hzero⟩ | ⟨th, tl, dh, dl, rfl, hbad⟩ := h
  · match rest with
    | [] => exact absurd hlength (by simp)
    | [_] => rfl
    | [_, _] => exact absurd hlength (by simp)
    | [_, _, _] => rfl
    | [_, _, _, _] => exact absurd hlength (by simp)
    | _ :: _ :: _ :: _ :: _ :: _ => rfl
  · exact check_bind_of_error (ensure_of_not (by omega) _) _
  · by_cases hterm : 1 ≤ number16 th tl
    · exact (check_bind_of_ok (ensure_of_true (decide_eq_true hterm) _) _).trans
        (check_bind_of_error (ensure_of_not (by omega) _) _)
    · exact check_bind_of_error (ensure_of_not hterm _) _

section
variable {s : State} {c : Client} {tag h : Byte} {i : Slot} {cl : Claim} {hd : Held} {rest : List Byte}

theorem renew_answers_formless {body : List Byte} (hsent : Sent s c .renew tag body)
    (hfirst : handleFirst body = .error ⟨.badArgument, []⟩) : Answers (.renew c) s s c tag .badArgument [] :=
  answers_of_error (cmd := .renew) hsent rfl (check_bind_of_error hfirst _)

theorem renew_answers_error (hsent : Sent s c .renew tag (h :: rest)) (hrest : renewTerm rest = .error ⟨.badArgument, []⟩) :
    Answers (.renew c) s s c tag .badArgument [] :=
  answers_of_error (cmd := .renew) hsent rfl (check_bind_of_error hrest _)

theorem renew_answers_ok {t : Option (Nat × Option Nat)} (hn : Names s c h i) (hbody : (s.entry i).body = .held cl hd)
    (hsent : Sent s c .renew tag (h :: rest)) (hrest : renewTerm rest = .ok t) :
    Answers (.renew c) s (s.setBody i (.held (renewed cl hd t).1 (renewed cl hd t).2)) c tag .ok
      (s.renewBody (renewed cl hd t).1 (renewed cl hd t).2) :=
  answers_of_ok (cmd := .renew) (x := (i, renewed cl hd t)) hsent rfl
    ((resolved_bind hrest hn).trans (check_bind_of_ok (EntryBody.needHeld_of hbody) _)) rfl

end

/-- Settles O24. -/
theorem renewReloadsTerm : Obligations.RenewReloadsTerm := by
  unfold Obligations.RenewReloadsTerm
  refine ⟨fun s c tag body hsent => ⟨fun hlength => ?_, fun h th tl hbody hzero => ?_, fun h th tl dh dl hbody hbad => ?_⟩,
    ⟨rfl, fun th tl h => renewTerm_term h, fun th tl dh dl h hlt => renewTerm_due h hlt⟩,
    fun s c tag h i cl hd hn hbody => ⟨fun hsent => ?_, fun th tl hterm hsent => ?_, fun th tl dh dl hdue hlt hsent => ?_⟩⟩
  · cases body with
    | nil => exact renew_answers_formless hsent rfl
    | cons h rest => exact renew_answers_error hsent (renewTerm_error (.inl (by simpa using hlength)))
  · subst hbody
    exact renew_answers_error hsent (renewTerm_error (.inr (.inl ⟨th, tl, rfl, hzero⟩)))
  · subst hbody
    exact renew_answers_error hsent (renewTerm_error (.inr (.inr ⟨th, tl, dh, dl, rfl, hbad⟩)))
  · refine (renew_answers_ok hn hbody hsent rfl).congr rfl rfl ?_
    change bytes16 cl.term ++ bytes16 cl.term ++ bytes16 (hd.due.getD 0) ++ [byteOf s.tickRate.val] = _
    rw [bytes16_getD] <;> rfl
  · refine (renew_answers_ok hn hbody hsent (renewTerm_term hterm)).congr rfl rfl ?_
    change bytes16 (number16 th tl) ++ bytes16 (number16 th tl) ++ bytes16 (Option.getD none 0) ++ [byteOf s.tickRate.val] = _
    rw [bytes16_number16, bytes16_getD]
    rfl
  · refine (renew_answers_ok hn hbody hsent (renewTerm_due hdue hlt)).congr rfl rfl ?_
    change bytes16 (number16 th tl) ++ bytes16 (number16 th tl) ++ bytes16 (number16 dh dl) ++ [byteOf s.tickRate.val] = _
    rw [bytes16_number16, bytes16_number16]
    rfl

/-! ## RELEASE, CANCEL, ACKNOWLEDGE and REVOKE -/

/-- The end of one entry leaves the response slots. -/
theorem State.slot_freed (s : State) (i : Slot) (c : Client) : ((s.retire i).grantScan.settleAttention).slot c = s.slot c :=
  (State.slot_grantScan _ c).trans (s.slot_retire i c)

theorem State.slot_revoked (s : State) (i : Slot) (c : Client) :
    ((s.entomb i .revoked).grantScan.settleAttention).slot c = s.slot c :=
  (State.slot_grantScan _ c).trans (s.slot_entomb i .revoked c)

/-- The checks of REVOKE on an entry that is not FREE: the state alone decides, whoever owns it (R39). -/
theorem State.revokeChecks_eq {s : State} {c : Client} {i : Slot} {cl : Claim} (hc : s.supervisor = c)
    (hclaim : (s.entry i).body.claim = some cl) :
    s.revokeChecks c [handleByte (s.entry i).generation i] =
      (s.entry i).body.needLive >>= fun cl => pure (i, cl) :=
  (State.needSupervisor_bind hc _).trans (check_bind_of_ok (s.resolve_own c true i cl hclaim (.inr rfl)) _)

theorem EndReason.code_eq (r : EndReason) : r.code = match r with | .lapsed => 0x01 | .revoked => 0x02 | .waitExpired => 0x03 := by
  cases r <;> rfl

/-- Settles O23. -/
theorem commandsEndEntries : Obligations.CommandsEndEntries := by
  unfold Obligations.CommandsEndEntries
  refine ⟨fun s c tag h i hn => ⟨fun hsent ⟨cl, hd, hbody⟩ => ?_, fun hsent ⟨cl, w, hbody⟩ => ?_, fun cl t hsent hbody => ?_⟩,
    fun s c tag i hc hsent => ⟨fun cl h hbody => ?_, fun cl w hbody => ?_, fun cl t hbody => ?_, fun hfree => ?_⟩⟩
  · exact answers_of_ok (cmd := .release) (x := i) hsent rfl ((check_bind_of_ok (State.soleHandle_ok hn) _).trans
      (check_bind_of_ok (EntryBody.needHeld_of hbody) _)) (s.slot_freed i c)
  · have hcheck : (s.entry i).body.needWaiting = .ok () := by rw [hbody]; rfl
    exact answers_of_ok (cmd := .cancel) (x := i) hsent rfl ((check_bind_of_ok (State.soleHandle_ok hn) _).trans
      (check_bind_of_ok hcheck _)) (s.slot_freed i c)
  · have hcheck : (s.entry i).body.needEnded = .ok t.reason := by rw [hbody]; rfl
    exact (answers_of_ok (cmd := .acknowledge) (x := (i, t.reason)) hsent rfl
      ((check_bind_of_ok (State.soleHandle_ok hn) _).trans (check_bind_of_ok hcheck _)) (s.slot_retire i c)).congr rfl rfl
      (congrArg (fun b => [b]) t.reason.code_eq)
  · refine (answers_of_ok (cmd := .revoke) (x := (i, cl)) hsent rfl ((State.revokeChecks_eq hc (by rw [hbody]; rfl)).trans
      (check_bind_of_ok (EntryBody.needLive_held hbody) _)) (s.slot_revoked i c)).congr rfl rfl ?_
    rw [hbody]
    rfl
  · refine (answers_of_ok (cmd := .revoke) (x := (i, cl)) hsent rfl ((State.revokeChecks_eq hc (by rw [hbody]; rfl)).trans
      (check_bind_of_ok (EntryBody.needLive_waiting hbody) _)) (s.slot_revoked i c)).congr rfl rfl ?_
    rw [hbody]
    rfl
  · refine answers_of_error (cmd := .revoke) hsent rfl ((State.revokeChecks_eq (cl := cl) hc (by rw [hbody]; rfl)).trans ?_)
    rw [hbody]
    rfl
  · refine answers_of_error (cmd := .revoke) hsent rfl ((State.needSupervisor_bind hc _).trans
      (check_bind_of_error (State.resolve_stale _ (.inl ?_)) _))
    rw [handleSlot_handleByte]
    exact hfree

end Sys2Proof.Machine
end

section
/-!
PROOF. The commands that name some of a lease's lines: RECONFIGURE and WRITE LEVELS (O27), SET WATCH and CLEAR WATCH (O28).
-/

namespace Sys2Proof.Machine

/-! ## Lists of coded pairs -/

section
variable {α : Type}

theorem mapAll_eq_some_iff {β : Type} (f : α → Option β) : ∀ (xs : List α) (ys : List β),
    mapAll f xs = some ys ↔ ys.map some = xs.map f
  | [], ys => by cases ys <;> simp [mapAll]
  | x :: xs, [] => by
    unfold mapAll
    split <;> simp
  | x :: xs, y :: ys => by
    rw [List.map_cons, List.map_cons, List.cons.injEq, ← mapAll_eq_some_iff f xs ys, mapAll]
    cases f x <;> cases mapAll f xs <;> simp [eq_comm]

theorem codedPairs_odd (code : Byte → Option α) {bs : List Byte} (h : bs.length % 2 = 1) :
    codedPairs code bs = .error ⟨.badArgument, []⟩ :=
  check_bind_of_error (need_error ((pairsOf_none_iff bs).2 h) _) _

/-- A code that names no value refuses the pairs. -/
theorem codedPairs_error {code : Byte → Option α} {ps : List (Byte × Byte)} (h : ∃ p ∈ ps, code p.2 = none) :
    codedPairs code (pairBytes ps) = .error ⟨.badArgument, []⟩ := by
  refine (check_bind_of_ok (need_ok (pairsOf_pairBytes ps) _) _).trans (need_error ((mapAll_none_iff _ _).2 ?_) _)
  obtain ⟨p, hp, hnone⟩ := h
  exact ⟨p, hp, by rw [hnone]; rfl⟩

theorem codedPairs_ok {code : Byte → Option α} {ps : List (Byte × Byte)} {qs : List (Byte × α)}
    (h : qs.map (fun q => (q.1, some q.2)) = ps.map fun p => (p.1, code p.2)) :
    codedPairs code (pairBytes ps) = .ok qs := by
  refine (check_bind_of_ok (need_ok (pairsOf_pairBytes ps) _) _).trans (need_ok ((mapAll_eq_some_iff _ _ _).2 ?_) _)
  have hjoin := congrArg (List.map fun x : Byte × Option α => x.2.map fun v => (x.1, v)) h
  simpa [Function.comp_def] using hjoin

theorem exists_codedPairs {code : Byte → Option α} {ps : List (Byte × Byte)} (h : ∀ p ∈ ps, code p.2 ≠ none) :
    ∃ qs : List (Byte × α), qs.map (fun q => (q.1, some q.2)) = ps.map fun p => (p.1, code p.2) := by
  induction ps with
  | nil => exact ⟨[], rfl⟩
  | cons p ps ih =>
    obtain ⟨qs, hqs⟩ := ih fun q hq => h q (.tail _ hq)
    obtain ⟨v, hv⟩ := Option.ne_none_iff_exists'.1 (h p (.head _))
    exact ⟨(p.1, v) :: qs, by simp [hqs, hv]⟩

/-- The bytes of lines with the codes of their values. -/
theorem codedPairs_lines {code : Byte → Option α} {f : Line × α → Byte} {ps : List (Line × α)}
    (h : ∀ p ∈ ps, code (f p) = some p.2) :
    codedPairs code (pairBytes (ps.map fun p => (byteOf p.1.val, f p))) = .ok (ps.map fun p => (byteOf p.1.val, p.2)) := by
  refine codedPairs_ok ?_
  rw [List.map_map, List.map_map]
  exact List.map_congr_left fun p hp => Prod.ext rfl (h p hp).symm

/-! ## Their lines -/

theorem zip_map_fst_snd (ps : List (Line × α)) : (ps.map Prod.fst).zip (ps.map Prod.snd) = ps := by
  rw [List.zip_map', List.map_id']

theorem lineValues_lines {most : Nat} {ps : List (Line × α)} (h : LinesTaken most (ps.map Prod.fst)) :
    lineValues 1 most (ps.map fun p => (byteOf p.1.val, p.2)) = .ok ps := by
  obtain ⟨hleast, hmost, hn⟩ := h
  rw [List.length_map] at hleast hmost
  have hcount : countWithin (ps.map fun p => (byteOf p.1.val, p.2)).length 1 most = .ok () :=
    ensure_of_true (decide_eq_true (by rw [List.length_map]; exact ⟨hleast, hmost⟩)) _
  have hlines : distinctLines ((ps.map fun p => (byteOf p.1.val, p.2)).map Prod.fst) = .ok (ps.map Prod.fst) := by
    have hd := distinctLines_map_byteOf (ps.map Prod.fst)
    rw [if_pos hn, List.map_map] at hd
    rw [List.map_map]
    exact hd
  refine (check_bind_of_ok hcount _).trans ((check_bind_of_ok hlines _).trans (congrArg Except.ok ?_))
  rw [List.map_map]
  exact zip_map_fst_snd ps

theorem lineValues_error {most : Nat} {qs : List (Byte × α)} (h : LinesRefused most (qs.map Prod.fst)) :
    lineValues 1 most qs = .error ⟨.badLines, []⟩ := by
  by_cases hcount : 1 ≤ qs.length ∧ qs.length ≤ most
  · refine (check_bind_of_ok (ensure_of_true (decide_eq_true hcount) _) _).trans
      (check_bind_of_error (distinctLines_refuses ?_) _)
    obtain hnil | hmany | hbig | htwice := h
    · rw [List.map_eq_nil_iff] at hnil
      rw [hnil] at hcount
      exact absurd hcount.1 (Nat.not_succ_le_zero 0)
    · rw [List.length_map] at hmany
      omega
    · exact .inr hbig
    · exact .inl htwice
  · exact check_bind_of_error (ensure_of_not hcount _) _

/-- Pairs whose line numbers are taken are those of lines. -/
theorem exists_lineValues {most : Nat} {qs : List (Byte × α)} (h : ¬LinesRefused most (qs.map Prod.fst)) :
    ∃ rs : List (Line × α), rs.map (fun r => (byteOf r.1.val, r.2)) = qs ∧ LinesTaken most (rs.map Prod.fst) := by
  obtain ⟨hnil, hmost, hbig, hn⟩ : qs.map Prod.fst ≠ [] ∧ ¬most < (qs.map Prod.fst).length ∧
      (¬∃ b ∈ qs.map Prod.fst, 23 < b.toNat) ∧ (qs.map Prod.fst).Nodup := by
    simpa only [LinesRefused, not_or, Decidable.not_not] using h
  obtain ⟨ls, hls⟩ := exists_lines_of_bytes fun b hb => Nat.le_of_not_lt fun hlt => hbig ⟨b, hb, hlt⟩
  have hlen : ls.length = qs.length := by simpa using congrArg List.length hls
  have hfst : (ls.zip (qs.map Prod.snd)).map Prod.fst = ls := List.map_fst_zip (by simp [hlen])
  refine ⟨ls.zip (qs.map Prod.snd), ?_, ?_⟩
  · have hzip : (ls.map fun l => byteOf l.val).zip (qs.map Prod.snd) = qs := by
      rw [hls, List.zip_map', List.map_id']
    rw [List.zip_map_left] at hzip
    exact hzip
  · rw [hfst]
    have hlength : (qs.map Prod.fst).length = ls.length := by simp [hlen]
    refine ⟨?_, by omega, (hls ▸ hn).of_map⟩
    have := List.length_pos_of_ne_nil hnil
    omega

end

/-! ## Modes -/

theorem modeAllowed_false_iff (l : Line) (m : Mode) :
    modeAllowed false l m = false ↔ m = .pulse ∨ (m = .analog ∧ l.val < 16) := by
  cases m <;> simp [modeAllowed]

theorem modesAllowed_of_taken {ps : LineConfigs} (h : ModesTaken ps) : modesAllowed false ps = .ok () := by
  refine ensure_of_true (List.all_eq_true.2 fun p hp => ?_) _
  obtain ⟨hpulse, hanalog⟩ := h p hp
  rw [← Bool.not_eq_false, modeAllowed_false_iff]
  rintro (hm | ⟨hm, hlt⟩)
  · exact hpulse hm
  · have := hanalog hm
    omega

/-- The mode of a configuration byte is in its bits 7 to 5 (R187). -/
theorem mode_code_of_configOfByte {b : Byte} {k : LineConfig} (h : configOfByte b = some k) : k.mode.code = b.toNat / 32 := by
  unfold configOfByte at h
  split at h
  · next m p hm _ =>
    obtain rfl := Option.some.inj h
    have hb := b.isLt
    generalize b.toNat / 32 = n at hm ⊢
    match n with
    | 0 | 1 | 2 | 3 | 4 => obtain rfl := Option.some.inj hm; rfl
    | n + 5 => nomatch hm
  · nomatch h

/-- Configuration bytes that give a mode which their line does not allow. -/
theorem modesAllowed_error {ps : List (Byte × Byte)} {qs : List (Byte × LineConfig)} {rs : LineConfigs}
    (hqs : qs.map (fun q => (q.1, some q.2)) = ps.map fun p => (p.1, configOfByte p.2))
    (hrs : rs.map (fun r => (byteOf r.1.val, r.2)) = qs) (h : ModesRefused ps) :
    modesAllowed false rs = .error ⟨.mode, []⟩ := by
  obtain ⟨p, hp, hmode⟩ := h
  have hmem : (p.1, configOfByte p.2) ∈ rs.map fun r => (byteOf r.1.val, some r.2) := by
    have hmap : rs.map (fun r => (byteOf r.1.val, some r.2)) = ps.map fun p => (p.1, configOfByte p.2) := by
      rw [← hqs, ← hrs, List.map_map]
      rfl
    rw [hmap]
    exact List.mem_map_of_mem hp
  obtain ⟨r, hr, heq⟩ := List.mem_map.1 hmem
  obtain ⟨hline, hconfig⟩ := Prod.mk.inj heq
  have hcode := mode_code_of_configOfByte hconfig.symm
  have hnumber : p.1.toNat = r.1.val := by
    rw [← hline]
    exact toNat_byteOf (by omega)
  refine ensure_of_false (List.all_eq_false.2 ⟨r, hr, ?_⟩) _
  rw [Bool.not_eq_true, modeAllowed_false_iff]
  obtain hpulse | ⟨hanalog, hlt⟩ := hmode
  · rw [hpulse] at hcode
    exact .inl (by cases hm : r.2.mode <;> simp [hm, Mode.code] at hcode ⊢)
  · rw [hanalog] at hcode
    exact .inr ⟨by cases hm : r.2.mode <;> simp [hm, Mode.code] at hcode ⊢, by omega⟩

theorem configRefused_iff (b : Byte) : ConfigRefused b ↔ configOfByte b = none := (configOfByte_none_iff b).symm

/-! ## RECONFIGURE: its body -/

theorem configRefused_none {ps : List (Byte × Byte)} (h : ∃ p ∈ ps, ConfigRefused p.2) : ∃ p ∈ ps, configOfByte p.2 = none :=
  h.imp fun _ hp => ⟨hp.1, (configRefused_iff _).1 hp.2⟩

theorem configTaken_some {ps : List (Byte × Byte)} (h : ∀ p ∈ ps, ¬ConfigRefused p.2) : ∀ p ∈ ps, configOfByte p.2 ≠ none :=
  fun p hp hnone => h p hp ((configRefused_iff _).2 hnone)

theorem map_fst_of_coded {α : Type} {code : Byte → Option α} {ps : List (Byte × Byte)} {qs : List (Byte × α)}
    (h : qs.map (fun q => (q.1, some q.2)) = ps.map fun p => (p.1, code p.2)) : qs.map Prod.fst = ps.map Prod.fst := by
  simpa [Function.comp_def] using congrArg (List.map Prod.fst) h

/-- The bytes of new configurations, whatever the bits that are not examined. -/
theorem codedPairs_configPairBytes (ps : LineConfigs) (low : Line → Fin 4) :
    codedPairs configOfByte (configPairBytes low ps) = .ok (ps.map fun p => (byteOf p.1.val, p.2)) :=
  codedPairs_lines fun p _ => configOfByte_byte p.2 (low p.1).isLt

/-- The list of new configurations that a body gives: refused first by a line number, then by a mode (R9, R40). -/
def newConfigs (most : Nat) (qs : List (Byte × LineConfig)) : Check LineConfigs := do
  let ps ← lineValues 1 most qs
  modesAllowed false ps
  pure ps

theorem reconfigurePairs_eq (bs : List Byte) : reconfigurePairs bs = codedPairs configOfByte bs >>= newConfigs 8 := rfl

theorem newConfigs_lines {most : Nat} {ps : LineConfigs} (h : LinesTaken most (ps.map Prod.fst)) (hmodes : ModesTaken ps) :
    newConfigs most (ps.map fun p => (byteOf p.1.val, p.2)) = .ok ps :=
  (check_bind_of_ok (lineValues_lines h) _).trans (check_bind_of_ok (modesAllowed_of_taken hmodes) _)

theorem newConfigs_badLines {most : Nat} {ps : List (Byte × Byte)} {qs : List (Byte × LineConfig)}
    (hqs : qs.map (fun q => (q.1, some q.2)) = ps.map fun p => (p.1, configOfByte p.2))
    (h : LinesRefused most (ps.map Prod.fst)) : newConfigs most qs = .error ⟨.badLines, []⟩ :=
  check_bind_of_error (lineValues_error (map_fst_of_coded hqs ▸ h)) _

theorem newConfigs_mode {most : Nat} {ps : List (Byte × Byte)} {qs : List (Byte × LineConfig)}
    (hqs : qs.map (fun q => (q.1, some q.2)) = ps.map fun p => (p.1, configOfByte p.2))
    (h : ¬LinesRefused most (ps.map Prod.fst)) (hmodes : ModesRefused ps) : newConfigs most qs = .error ⟨.mode, []⟩ := by
  obtain ⟨rs, hrs, htaken⟩ := exists_lineValues (map_fst_of_coded hqs ▸ h)
  have hlines : lineValues 1 most qs = .ok rs := hrs ▸ lineValues_lines htaken
  exact (check_bind_of_ok hlines _).trans (check_bind_of_error (modesAllowed_error hqs hrs hmodes) _)

theorem reconfigurePairs_error {ps : List (Byte × Byte)} (hcodes : ∀ p ∈ ps, ¬ConfigRefused p.2) {st : Status}
    (h : ∀ qs : List (Byte × LineConfig), qs.map (fun q => (q.1, some q.2)) = ps.map (fun p => (p.1, configOfByte p.2)) →
      newConfigs 8 qs = .error ⟨st, []⟩) : reconfigurePairs (pairBytes ps) = .error ⟨st, []⟩ := by
  obtain ⟨qs, hqs⟩ := exists_codedPairs (configTaken_some hcodes)
  exact (check_bind_of_ok (codedPairs_ok hqs) _).trans (h qs hqs)

/-! ## The bodies of the line commands that begin with a handle -/

section
variable {s : State} {c : Client} {tag h : Byte} {body rest : List Byte}

theorem handleFirst_nil {body : List Byte} (h : body = []) : handleFirst body = .error ⟨.badArgument, []⟩ := by
  rw [h]
  rfl

/-- A body whose length is even has no handle with whole pairs after it. -/
theorem odd_of_handle {h : Byte} (heven : (h :: rest).length % 2 = 0) : rest.length % 2 = 1 := by
  rw [List.length_cons] at heven
  omega

theorem reconfigure_answers_error {st : Status} (hsent : Sent s c .reconfigure tag (h :: rest))
    (hrest : reconfigurePairs rest = .error ⟨st, []⟩) : Answers (.reconfigure c) s s c tag st [] :=
  answers_of_error (cmd := .reconfigure) hsent rfl (check_bind_of_error hrest _)

theorem reconfigure_answers_odd (hsent : Sent s c .reconfigure tag body) (heven : body.length % 2 = 0) :
    Answers (.reconfigure c) s s c tag .badArgument [] := by
  by_cases hnil : body = []
  · exact answers_of_error (cmd := .reconfigure) hsent rfl (check_bind_of_error (handleFirst_nil hnil) _)
  · obtain ⟨h, rest, rfl⟩ := List.exists_cons_of_ne_nil hnil
    exact reconfigure_answers_error hsent (check_bind_of_error (codedPairs_odd _ (odd_of_handle heven)) _)

theorem writeLevels_answers_error {st : Status} (hsent : Sent s c .writeLevels tag (h :: rest))
    (hrest : levelPairs rest = .error ⟨st, []⟩) : Answers (.writeLevels c) s s c tag st [] :=
  answers_of_error (cmd := .writeLevels) hsent rfl (check_bind_of_error hrest _)

theorem writeLevels_answers_odd (hsent : Sent s c .writeLevels tag body) (heven : body.length % 2 = 0) :
    Answers (.writeLevels c) s s c tag .badArgument [] := by
  by_cases hnil : body = []
  · exact answers_of_error (cmd := .writeLevels) hsent rfl (check_bind_of_error (handleFirst_nil hnil) _)
  · obtain ⟨h, rest, rfl⟩ := List.exists_cons_of_ne_nil hnil
    exact writeLevels_answers_error hsent (check_bind_of_error (codedPairs_odd _ (odd_of_handle heven)) _)

end

theorem levelOfByte_none {b : Byte} (h : 1 < b.toNat) : levelOfByte b = none := by
  rw [Option.eq_none_iff_forall_ne_some]
  intro v hv
  rw [levelOfByte_iff] at hv
  subst hv
  cases v <;> exact absurd h (by decide)

theorem levelOfByte_ne_none {b : Byte} (h : b.toNat ≤ 1) : levelOfByte b ≠ none := by
  obtain h | h : b = byteOf 0 ∨ b = byteOf 1 := by
    rw [← byteOf_toNat b]
    obtain h | h : b.toNat = 0 ∨ b.toNat = 1 := by omega
    · exact .inl (congrArg byteOf h)
    · exact .inr (congrArg byteOf h)
  all_goals
    rw [h]
    decide

theorem levelPairs_error {ps : List (Byte × Byte)} (hcodes : ∀ p ∈ ps, p.2.toNat ≤ 1) (h : LinesRefused 8 (ps.map Prod.fst)) :
    levelPairs (pairBytes ps) = .error ⟨.badLines, []⟩ := by
  obtain ⟨qs, hqs⟩ := exists_codedPairs fun p hp => levelOfByte_ne_none (hcodes p hp)
  exact (check_bind_of_ok (codedPairs_ok hqs) _).trans (lineValues_error (map_fst_of_coded hqs ▸ h))

/-! ## The change of lines -/

theorem configFor_withLevels_eq (configs : LineConfigs) (ps : List (Line × Level)) (l : Line) :
    configFor (withLevels configs ps) l =
      match ps.lookup l, configFor configs l with
      | some v, some k => some { k with level := v }
      | _, _ => none := by
  induction ps with
  | nil => rfl
  | cons p ps ih =>
    have hcons : withLevels configs (p :: ps) =
        ((configFor configs p.1).map fun k => (p.1, { k with level := p.2 })).toList ++ withLevels configs ps := by
      unfold withLevels
      rw [List.filterMap_cons]
      cases configFor configs p.1 <;> rfl
    rw [hcons, List.lookup_cons]
    by_cases hl : l = p.1
    · subst hl
      rw [beq_self_eq_true]
      cases hk : configFor configs p.1 with
      | none =>
        refine ih.trans ?_
        rw [hk]
        split <;> simp_all
      | some k => simp [configFor_cons]
    · rw [beq_eq_false_iff_ne.2 hl]
      refine Eq.trans ?_ ih
      cases configFor configs p.1 with
      | none => rfl
      | some k => exact (configFor_cons _ _ l).trans (if_neg hl)

/-- The record of a lease after WRITE LEVELS (R98). -/
theorem replaced_withLevels (configs : LineConfigs) (ps : List (Line × Level)) :
    replaced configs (withLevels configs ps) = configs.map fun p =>
      (p.1, match ps.lookup p.1 with
        | none => p.2
        | some v => { (configFor configs p.1).getD p.2 with level := v }) := by
  refine List.map_congr_left fun p hp => Prod.ext rfl ?_
  obtain ⟨k, hk⟩ := Option.isSome_iff_exists.1 ((configFor_isSome_iff configs p.1).2 (List.mem_map_of_mem hp))
  dsimp only
  rw [configFor_withLevels_eq, hk]
  cases ps.lookup p.1 <;> rfl

/-- A change of levels alone makes no mode-change report (R15). -/
theorem State.configureLines_sameModes {s : State} {ps : LineConfigs}
    (h : ∀ l : Line, s.effective[l].mode = (s.configureLines ps).effective[l].mode) :
    (s.configureLines ps).inFlight = s.inFlight := by
  rw [State.configureLines_request]
  refine (congrArg (fun f => s.inFlight.map f) (funext fun f => ?_)).trans Option.map_id'
  unfold InFlight.disturbedBetween
  rw [decide_eq_false (not_not_intro (h f.request.line)), Bool.or_false]

/-- Settles O27. -/
theorem holderChangesItsLines : Obligations.HolderChangesItsLines := by
  unfold Obligations.HolderChangesItsLines
  refine ⟨fun s c tag body => ⟨fun hsent => ⟨fun heven => reconfigure_answers_odd hsent heven, fun h ps hbody =>
      ⟨fun hcodes => ?_, fun hcodes hlines => ?_, fun hcodes hlines hmodes => ?_⟩⟩,
      fun hsent => ⟨fun heven => writeLevels_answers_odd hsent heven, fun h ps hbody =>
        ⟨fun hcodes => ?_, fun hcodes hlines => ?_⟩⟩⟩,
    ⟨fun ps low hlines hmodes => ?_, fun ps hlines => ?_⟩,
    fun s c tag h rest i cl hd ps hn hbody hkind hsent hps hin hmodes => ?_,
    fun s c tag h rest i cl hd ps hn hbody hkind hsent hps hin => ?_⟩
  · subst hbody
    exact reconfigure_answers_error hsent (check_bind_of_error (codedPairs_error (configRefused_none hcodes)) _)
  · subst hbody
    exact reconfigure_answers_error hsent (reconfigurePairs_error hcodes fun qs hqs => newConfigs_badLines hqs hlines)
  · subst hbody
    exact reconfigure_answers_error hsent (reconfigurePairs_error hcodes fun qs hqs => newConfigs_mode hqs hlines hmodes)
  · subst hbody
    exact writeLevels_answers_error hsent (check_bind_of_error
      (codedPairs_error (hcodes.imp fun p hp => ⟨hp.1, levelOfByte_none hp.2⟩)) _)
  · subst hbody
    exact writeLevels_answers_error hsent (levelPairs_error hcodes hlines)
  · exact (check_bind_of_ok (codedPairs_configPairBytes ps low) _).trans (newConfigs_lines hlines hmodes)
  · exact (check_bind_of_ok (codedPairs_lines fun p _ => (levelOfByte_iff _ p.2).2 rfl) _).trans (lineValues_lines hlines)
  · have hmode : (ps.all fun p => !isPulseIn hd.configs p.1) = true := by
      refine List.all_eq_true.2 fun p hp => ?_
      rw [Bool.not_eq_true', Bool.eq_false_iff]
      exact fun hpulse => by
        obtain ⟨k, hk, hm⟩ := (isPulseIn_iff _ _).1 hpulse
        exact hmodes p hp k hk hm
    refine ⟨s.reconfigureLease i cl hd ps, answers_of_ok (cmd := .reconfigure) (x := (i, cl, hd, ps)) hsent rfl
      ((State.reconfigureChecks_eq hn hbody hkind hps).trans ((check_bind_of_ok (needLines_ok hin) _).trans
        (check_bind_of_ok (ensure_of_true hmode _) _))) rfl, rfl, fun l => State.configureLines_line _ ps l,
      State.configureLines_request _ ps, rfl⟩
  · have hmode : (ps.all fun p => takesLevel hd.configs p.1) = true := by
      refine List.all_eq_true.2 fun p hp => ?_
      rw [← Bool.not_eq_false, takesLevel_false_iff]
      obtain ⟨-, k, hk, hm⟩ := hin p hp
      intro hno
      obtain ⟨hpush, hdrain⟩ := hno k hk
      exact hm.elim hpush hdrain
    have heffective (l : Line) : (s.reconfigureLease i cl hd (withLevels hd.configs ps)).effective[l] =
        match ps.lookup l, configFor hd.configs l with
        | some v, some k => { k with level := v }
        | _, _ => s.effective[l] := by
      refine (State.configureLines_line _ _ l).trans ?_
      rw [configFor_withLevels_eq]
      cases ps.lookup l <;> cases configFor hd.configs l <;> rfl
    refine ⟨s.reconfigureLease i cl hd (withLevels hd.configs ps),
      answers_of_ok (cmd := .writeLevels) (x := (i, cl, hd, ps)) hsent rfl
        ((State.writeLevelsChecks_eq hn hbody hkind hps).trans ((check_bind_of_ok (needLines_ok fun p hp => (hin p hp).1) _).trans
          (check_bind_of_ok (ensure_of_true hmode _) _))) rfl, ?_, heffective, fun hrecord hholder hsource => ?_, rfl⟩
    · exact congrArg (fun configs => s.entries.set i ⟨(s.entry i).generation, .held cl { hd with configs := configs }⟩)
        (replaced_withLevels hd.configs ps)
    · refine State.configureLines_sameModes fun l => ?_
      change s.effective[l].mode = _
      refine Eq.trans ?_ (congrArg LineConfig.mode (heffective l)).symm
      have hheld := ((sourceLaw_iff hrecord hholder).1 hsource).held i l
      rw [hbody] at hheld
      cases hk : configFor hd.configs l with
      | none => cases ps.lookup l <;> rfl
      | some k =>
        have heff : s.effective[l] = k := hheld k hk
        cases ps.lookup l with
        | none => rfl
        | some v => rw [heff]

end Sys2Proof.Machine
end

section
/-!
PROOF. SET WATCH and CLEAR WATCH (O28), SET IDLE PLAN (O30), CONVERT (O43) and SET PULSE (O29): which bodies each takes, and
what it does.
-/

namespace Sys2Proof.Machine

/-! ## SET WATCH and CLEAR WATCH -/

theorem senseOfByte_none {b : Byte} (h : b.toNat = 0 ∨ 3 < b.toNat) : senseOfByte b = none := by
  rw [Option.eq_none_iff_forall_ne_some]
  intro v hv
  rw [senseOfByte_iff] at hv
  subst hv
  cases v <;> exact absurd h (by decide)

theorem senseOfByte_ne_none {b : Byte} (h : b.toNat ≠ 0 ∧ b.toNat ≤ 3) : senseOfByte b ≠ none := by
  obtain h | h | h : b = byteOf 1 ∨ b = byteOf 2 ∨ b = byteOf 3 := by
    rw [← byteOf_toNat b]
    obtain h | h | h : b.toNat = 1 ∨ b.toNat = 2 ∨ b.toNat = 3 := by omega
    · exact .inl (congrArg byteOf h)
    · exact .inr (.inl (congrArg byteOf h))
    · exact .inr (.inr (congrArg byteOf h))
  all_goals
    rw [h]
    decide

theorem Sense.code_eq (v : Sense) : v.code = match v with | .rising => 0x01 | .falling => 0x02 | .both => 0x03 := by
  cases v <;> rfl

/-- A filter length or a sense that is none refuses the body (R103). -/
theorem watchRequest_badArgument {filter : Byte} {ps : List (Byte × Byte)}
    (h : filter.toNat = 0 ∨ 15 < filter.toNat ∨ ∃ p ∈ ps, p.2.toNat = 0 ∨ 3 < p.2.toNat) :
    watchRequest (filter :: pairBytes ps) = .error ⟨.badArgument, []⟩ := by
  by_cases hcodes : ∃ p ∈ ps, senseOfByte p.2 = none
  · exact check_bind_of_error (codedPairs_error hcodes) _
  · obtain ⟨qs, hqs⟩ := exists_codedPairs fun p hp hnone => hcodes ⟨p, hp, hnone⟩
    refine (check_bind_of_ok (codedPairs_ok hqs) _).trans (check_bind_of_error (ensure_of_not ?_ _) _)
    obtain hzero | hmany | ⟨p, hp, hbad⟩ := h
    · omega
    · omega
    · exact absurd ⟨p, hp, senseOfByte_none hbad⟩ hcodes

theorem watchRequest_badLines {filter : Byte} {ps : List (Byte × Byte)} (hfilter : filter.toNat ≠ 0 ∧ filter.toNat ≤ 15)
    (hcodes : ∀ p ∈ ps, p.2.toNat ≠ 0 ∧ p.2.toNat ≤ 3) (h : LinesRefused 8 (ps.map Prod.fst)) :
    watchRequest (filter :: pairBytes ps) = .error ⟨.badLines, []⟩ := by
  obtain ⟨qs, hqs⟩ := exists_codedPairs fun p hp => senseOfByte_ne_none (hcodes p hp)
  exact (check_bind_of_ok (codedPairs_ok hqs) _).trans
    ((check_bind_of_ok (ensure_of_true (decide_eq_true (by omega)) _) _).trans
      (check_bind_of_error (lineValues_error (map_fst_of_coded hqs ▸ h)) _))

/-- The bytes of a filter length and of lines with their senses. -/
theorem watchRequest_lines {filter : Nat} {f : Line × Sense → Byte} {ps : List (Line × Sense)} (hleast : 1 ≤ filter)
    (hmost : filter ≤ 15) (hf : ∀ p ∈ ps, senseOfByte (f p) = some p.2) (hlines : LinesTaken 8 (ps.map Prod.fst)) :
    watchRequest (byteOf filter :: pairBytes (ps.map fun p => (byteOf p.1.val, f p))) = .ok (filter, ps) := by
  have hfilter : (byteOf filter).toNat = filter := toNat_byteOf (by omega)
  refine (check_bind_of_ok (codedPairs_lines hf) _).trans ((check_bind_of_ok (ensure_of_true (decide_eq_true ?_) _) _).trans
    ((check_bind_of_ok (lineValues_lines hlines) _).trans (congrArg (fun n => Except.ok (n, ps)) hfilter)))
  omega

section
variable {s : State} {c : Client} {tag h : Byte} {body rest : List Byte}

theorem setWatch_answers_error {st : Status} (hsent : Sent s c .setWatch tag (h :: rest))
    (hrest : watchRequest rest = .error ⟨st, []⟩) : Answers (.setWatch c) s s c tag st [] :=
  answers_of_error (cmd := .setWatch) hsent rfl (check_bind_of_error hrest _)

theorem setWatch_answers_odd (hsent : Sent s c .setWatch tag body) (hform : body = [] ∨ body.length % 2 = 1) :
    Answers (.setWatch c) s s c tag .badArgument [] := by
  by_cases hnil : body = []
  · exact answers_of_error (cmd := .setWatch) hsent rfl (check_bind_of_error (handleFirst_nil hnil) _)
  · obtain ⟨h, rest, rfl⟩ := List.exists_cons_of_ne_nil hnil
    have hodd := hform.resolve_left hnil
    cases rest with
    | nil => exact setWatch_answers_error hsent rfl
    | cons filter rest =>
      refine setWatch_answers_error hsent (check_bind_of_error (codedPairs_odd _ ?_) _)
      rw [List.length_cons, List.length_cons] at hodd
      omega

end

/-- The lines of a new watch, ascending (R104). -/
theorem State.armedWatch_lines (s : State) (filter : Nat) (ps : List (Line × Sense)) :
    (s.armedWatch filter ps).lines.map WatchedLine.line = allLines.filter fun l => (ps.lookup l).isSome := by
  refine (map_ascending ps (fun l sense => ⟨l, sense, s.lastSample[l], 0⟩) WatchedLine.line fun _ _ => rfl).trans (List.filter_congr fun l _ => ?_)
  rw [Bool.eq_iff_iff, List.contains_iff_mem, lookup_isSome_iff_mem]

theorem State.mem_armedWatch {s : State} {filter : Nat} {ps : List (Line × Sense)} {x : WatchedLine}
    (h : x ∈ (s.armedWatch filter ps).lines) :
    ps.lookup x.line = some x.sense ∧ x.stable = s.lastSample[x.line] ∧ x.run = 0 := by
  obtain ⟨l, -, hl⟩ := List.mem_filterMap.1 h
  obtain ⟨sense, hsense, rfl⟩ := Option.map_eq_some_iff.1 hl
  exact ⟨hsense, rfl, rfl⟩

/-- The response of SET WATCH: each line with its last sample. -/
theorem State.armedBody_eq (s : State) (filter : Nat) (ps : List (Line × Sense)) :
    (s.armedWatch filter ps).armedBody =
      byteOf (allLines.filter fun l => (ps.lookup l).isSome).length ::
        (allLines.filter fun l => (ps.lookup l).isSome).flatMap fun l =>
          [byteOf l.val, match s.lastSample[l] with | .low => 0x00 | .high => 0x01] := by
  rw [← s.armedWatch_lines filter ps, List.length_map, List.flatMap_map]
  refine congrArg (List.cons _) (List.flatMap_congr fun x hx => ?_)
  rw [← (State.mem_armedWatch hx).2.1]
  cases x.stable <;> rfl

/-- Settles O28. -/
theorem watchIsSetAndCleared : Obligations.WatchIsSetAndCleared := by
  unfold Obligations.WatchIsSetAndCleared
  refine ⟨fun s c tag body hsent => ⟨fun hform => setWatch_answers_odd hsent hform, fun h filter ps hbody =>
      ⟨fun hbad => ?_, fun hzero hmost hcodes hlines => ?_⟩⟩,
    fun filter ps hleast hmost hlines => watchRequest_lines hleast hmost (fun p _ => (senseOfByte_iff _ p.2).2 p.2.code_eq) hlines,
    fun s c tag h i cl hd hn hbody => ⟨fun rest filter ps lines hsent hrest hin hlines => ?_, fun hsent => ?_⟩⟩
  · subst hbody
    exact setWatch_answers_error hsent (watchRequest_badArgument hbad)
  · subst hbody
    exact setWatch_answers_error hsent (watchRequest_badLines ⟨hzero, hmost⟩ hcodes hlines)
  · subst hlines
    refine ⟨s.armedWatch filter ps, rfl, s.armedWatch_lines filter ps, fun x hx => State.mem_armedWatch hx, ?_⟩
    exact (answers_of_ok (cmd := .setWatch) (x := (i, cl, hd, filter, ps)) hsent rfl
      ((State.setWatchChecks_eq hn hbody hrest).trans (check_bind_of_ok (needLines_ok hin) _)) rfl).congr rfl rfl
      (s.armedBody_eq filter ps)
  · exact answers_of_ok (cmd := .clearWatch) (x := (i, cl, hd)) hsent rfl
      ((check_bind_of_ok (State.soleHandle_ok hn) _).trans (check_bind_of_ok (EntryBody.needHeld_of hbody) _)) rfl

/-! ## SET IDLE PLAN -/

section
variable {s : State} {c : Client} {tag : Byte} {body : List Byte}

/-- The count of SET IDLE PLAN stands before its line numbers (R9). -/
theorem idlePlanPairs_eq (bs : List Byte) :
    idlePlanPairs bs = codedPairs configOfByte bs >>= fun qs =>
      ensure (decide (1 ≤ qs.length ∧ qs.length ≤ 16)) .badArgument >>= fun _ => newConfigs 16 qs := rfl

theorem length_of_coded {α : Type} {code : Byte → Option α} {ps : List (Byte × Byte)} {qs : List (Byte × α)}
    (h : qs.map (fun q => (q.1, some q.2)) = ps.map fun p => (p.1, code p.2)) : qs.length = ps.length := by
  simpa using congrArg List.length h

theorem idlePlanPairs_error {ps : List (Byte × Byte)} (hcodes : ∀ p ∈ ps, ¬ConfigRefused p.2) (hcount : 1 ≤ ps.length ∧ ps.length ≤ 16)
    {st : Status}
    (h : ∀ qs : List (Byte × LineConfig), qs.map (fun q => (q.1, some q.2)) = ps.map (fun p => (p.1, configOfByte p.2)) →
      newConfigs 16 qs = .error ⟨st, []⟩) : idlePlanPairs (pairBytes ps) = .error ⟨st, []⟩ := by
  obtain ⟨qs, hqs⟩ := exists_codedPairs (configTaken_some hcodes)
  refine (check_bind_of_ok (codedPairs_ok hqs) _).trans ((check_bind_of_ok (ensure_of_true (decide_eq_true ?_) _) _).trans (h qs hqs))
  rw [length_of_coded hqs]
  exact hcount

theorem length_pairBytes (ps : List (Byte × Byte)) : (pairBytes ps).length = 2 * ps.length := by
  simp [pairBytes, Nat.mul_comm]

/-- A body of SET IDLE PLAN that is no 1 to 16 pairs (R9). -/
theorem idlePlanPairs_form (h : body.length % 2 = 1 ∨ body = [] ∨ 32 < body.length) :
    idlePlanPairs body = .error ⟨.badArgument, []⟩ := by
  cases hpairs : pairsOf body with
  | none => exact check_bind_of_error (codedPairs_odd _ ((pairsOf_none_iff body).1 hpairs)) _
  | some ps =>
    obtain rfl := pairBytes_of_pairsOf body ps hpairs
    by_cases hcodes : ∃ p ∈ ps, configOfByte p.2 = none
    · exact check_bind_of_error (codedPairs_error hcodes) _
    · obtain ⟨qs, hqs⟩ := exists_codedPairs fun p hp hnone => hcodes ⟨p, hp, hnone⟩
      refine (check_bind_of_ok (codedPairs_ok hqs) _).trans (check_bind_of_error (ensure_of_not ?_ _) _)
      have hlen := length_of_coded hqs
      rw [← List.length_eq_zero_iff, length_pairBytes] at h
      omega

theorem setIdlePlan_answers_error {st : Status} (hc : s.supervisor = c) (hsent : Sent s c .setIdlePlan tag body)
    (hbody : idlePlanPairs body = .error ⟨st, []⟩) : Answers (.setIdlePlan c) s s c tag st [] :=
  answers_of_error (cmd := .setIdlePlan) hsent rfl ((State.needSupervisor_bind hc _).trans hbody)

theorem newConfigs_ok {most : Nat} {qs : List (Byte × LineConfig)} {ps : LineConfigs} (h : newConfigs most qs = .ok ps) :
    (ps.map Prod.fst).Nodup := by
  obtain ⟨rs, hrs, h⟩ := (check_bind_ok_iff _ _ _).1 h
  obtain ⟨_, _, h⟩ := (check_bind_ok_iff _ _ _).1 h
  obtain rfl : rs = ps := Except.ok.inj h
  exact (lineValues_ok hrs).1

theorem idlePlanPairs_nodup {ps : LineConfigs} (h : idlePlanPairs body = .ok ps) : (ps.map Prod.fst).Nodup := by
  obtain ⟨qs, _, h⟩ := (check_bind_ok_iff _ _ _).1 h
  obtain ⟨_, _, h⟩ := (check_bind_ok_iff _ _ _).1 h
  exact newConfigs_ok h

theorem mem_iff_configFor {ps : LineConfigs} (hn : (ps.map Prod.fst).Nodup) (l : Line) (k : LineConfig) :
    (l, k) ∈ ps ↔ configFor ps l = some k :=
  ⟨fun h => lookup_of_mem hn h, mem_of_lookup⟩

theorem State.followsIdlePlan_iff (l : Line) : s.followsIdlePlan l = true ↔ s.exclusiveSlot l = none := Option.isNone_iff_eq_none

theorem State.configFor_atOnce (ps : LineConfigs) (l : Line) :
    configFor (s.atOnce ps) l = if s.exclusiveSlot l = none then configFor ps l else none :=
  (configFor_filter s.followsIdlePlan ps l).trans (if_congr (s.followsIdlePlan_iff l) rfl rfl)

theorem State.inSet_changedAtOnce {ps : LineConfigs} (hn : (ps.map Prod.fst).Nodup) (l : Line) :
    inSet l (s.changedAtOnce ps) = true ↔
      s.exclusiveSlot l = none ∧ ∃ k, configFor ps l = some k ∧ s.effective[l] ≠ k := by
  rw [State.changedAtOnce, inSet_lineSet, decide_eq_true_eq]
  simp only [State.atOnce, List.mem_map, List.mem_filter, s.followsIdlePlan_iff, decide_eq_true_eq]
  constructor
  · rintro ⟨⟨l, k⟩, ⟨⟨hmem, hfree⟩, hne⟩, rfl⟩
    exact ⟨hfree, k, (mem_iff_configFor hn l k).1 hmem, hne⟩
  · rintro ⟨hfree, k, hk, hne⟩
    exact ⟨(l, k), ⟨⟨(mem_iff_configFor hn l k).2 hk, hfree⟩, hne⟩, rfl⟩

theorem State.inSet_storedBehind (ps : LineConfigs) (l : Line) :
    inSet l (s.storedBehind ps) = true ↔ s.exclusiveSlot l ≠ none ∧ configFor ps l ≠ none := by
  rw [State.storedBehind, inSet_lineSet, decide_eq_true_eq, ne_eq, ne_eq, configFor_eq_none_iff, Decidable.not_not,
    ← s.followsIdlePlan_iff]
  simp [and_comm]

end

/-- Settles O30. -/
theorem idlePlanIsStoredOrApplied : Obligations.IdlePlanIsStoredOrApplied := by
  unfold Obligations.IdlePlanIsStoredOrApplied
  refine ⟨fun s c tag body hc hsent => ⟨fun hform => setIdlePlan_answers_error hc hsent (idlePlanPairs_form hform),
      fun ps hbody => ⟨fun hcodes => ?_, fun hne hmost hcodes hlines => ?_, fun hcodes hlines hmodes => ?_⟩⟩,
    fun ps low hlines hmodes => ?_, fun s c tag body ps hc hsent hbody => ?_⟩
  · subst hbody
    exact setIdlePlan_answers_error hc hsent (check_bind_of_error (codedPairs_error (configRefused_none hcodes)) _)
  · subst hbody
    exact setIdlePlan_answers_error hc hsent (idlePlanPairs_error hcodes ⟨List.length_pos_of_ne_nil hne, hmost⟩
      fun qs hqs => newConfigs_badLines hqs hlines)
  · subst hbody
    have hcount : 1 ≤ ps.length ∧ ps.length ≤ 16 := by
      have hnil : ps.map Prod.fst ≠ [] := fun h => hlines (.inl h)
      have hmost : ¬16 < (ps.map Prod.fst).length := fun h => hlines (.inr (.inl h))
      have hpos := List.length_pos_of_ne_nil hnil
      rw [List.length_map] at hmost hpos
      omega
    exact setIdlePlan_answers_error hc hsent (idlePlanPairs_error hcodes hcount
      fun qs hqs => newConfigs_mode hqs hlines hmodes)
  · obtain ⟨hleast, hmost, -⟩ := id hlines
    rw [List.length_map] at hleast hmost
    exact (check_bind_of_ok (codedPairs_configPairBytes ps low) _).trans
      ((check_bind_of_ok (ensure_of_true (decide_eq_true (by rw [List.length_map]; exact ⟨hleast, hmost⟩)) _) _).trans
        (newConfigs_lines hlines hmodes))
  · refine ⟨s.storeIdlePlan ps, s.changedAtOnce ps, s.storedBehind ps,
      answers_of_ok (cmd := .setIdlePlan) (x := ps) hsent rfl ((State.needSupervisor_bind hc _).trans hbody) rfl,
      fun l => State.inSet_changedAtOnce (idlePlanPairs_nodup hbody) l, fun l => State.inSet_storedBehind ps l,
      fun l => tabulate_getElem _ l, fun l => ?_, State.configureLines_request _ (s.atOnce ps), rfl⟩
    refine (State.configureLines_line _ (s.atOnce ps) l).trans ?_
    rw [State.configFor_atOnce]
    split <;> rfl

/-! ## CONVERT -/

theorem samplesOfByte_byteOf {n : Nat} (h : n ∈ [1, 2, 4, 8]) : samplesOfByte (byteOf n) = some n := by
  have hlt : n < 256 := by
    simp only [List.mem_cons, List.not_mem_nil, or_false] at h
    omega
  unfold samplesOfByte
  rw [toNat_byteOf hlt, if_pos h]

theorem convertRequest_ok {l : Line} {n : Nat} (h : n ∈ [1, 2, 4, 8]) : convertRequest [byteOf l.val, byteOf n] = .ok (l, n) :=
  (check_bind_of_ok (need_ok (samplesOfByte_byteOf h) _) _).trans (check_bind_of_ok (need_ok (lineOfByte_byteOf l) _) _)

theorem convertRequest_form {rest : List Byte} (h : rest.length ≠ 2) : convertRequest rest = .error ⟨.badArgument, []⟩ := by
  match rest with
  | [] => rfl
  | [_] => rfl
  | [_, _] => exact absurd rfl h
  | _ :: _ :: _ :: _ => rfl

theorem convertRequest_badArgument (l : Byte) {n : Byte} (h : n.toNat ∉ [1, 2, 4, 8]) :
    convertRequest [l, n] = .error ⟨.badArgument, []⟩ :=
  check_bind_of_error (need_error (if_neg h) _) _

theorem convertRequest_badLines {l n : Byte} (hn : n.toNat ∈ [1, 2, 4, 8]) (hl : 23 < l.toNat) :
    convertRequest [l, n] = .error ⟨.badLines, []⟩ :=
  (check_bind_of_ok (need_ok (if_pos hn) _) _).trans (check_bind_of_error (need_error ((lineOfByte_none_iff l).2 hl) _) _)

section
variable {s : State} {c : Client} {tag h : Byte} {body rest : List Byte}

theorem convert_answers_error {st : Status} (hsent : Sent s c .convert tag (h :: rest))
    (hrest : convertRequest rest = .error ⟨st, []⟩) : Answers (.convert c) s s c tag st [] :=
  answers_of_error (cmd := .convert) hsent rfl (check_bind_of_error hrest _)

theorem convert_answers_form (hsent : Sent s c .convert tag body) (hlength : body.length ≠ 3) :
    Answers (.convert c) s s c tag .badArgument [] := by
  by_cases hnil : body = []
  · exact answers_of_error (cmd := .convert) hsent rfl (check_bind_of_error (handleFirst_nil hnil) _)
  · obtain ⟨h, rest, rfl⟩ := List.exists_cons_of_ne_nil hnil
    exact convert_answers_error hsent (convertRequest_form (by simpa using hlength))

end

theorem State.setBody_setBody (s : State) (i : Slot) (b b' : EntryBody) : (s.setBody i b).setBody i b' = s.setBody i b' := by
  simp [State.setBody, State.setEntry, State.entry]

theorem State.joinQueue_held {s : State} {r : Request} {cl : Claim} {hd : Held} (hbody : (s.entry r.slot).body = .held cl hd) :
    s.joinQueue r = { s.setBody r.slot (.held cl { hd with conv := .queued }) with convQueue := s.convQueue ++ [r] } := by
  unfold State.joinQueue
  rw [hbody]
  rfl

/-- An IDLE converter starts a request within the event (R135). -/
theorem State.requestConversion_idle {s : State} {r : Request} {cl : Claim} {hd : Held}
    (hbody : (s.entry r.slot).body = .held cl hd) (hidle : s.inFlight = none) (hqueue : s.convQueue = [])
    (hmode : s.effective[r.line].mode = .analog) :
    s.requestConversion r = { s.setBody r.slot (.held cl { hd with conv := .inFlight }) with inFlight := some (s.started r) } := by
  have hentry : (s.joinQueue r).entry r.slot = ⟨(s.entry r.slot).generation, .held cl { hd with conv := .queued }⟩ := by
    rw [State.joinQueue_held hbody]
    exact (State.entry_setBody ..).trans (if_pos rfl)
  have hset := congrArg State.entries
    (s.setBody_setBody r.slot (.held cl { hd with conv := .queued }) (.held cl { hd with conv := .inFlight }))
  have hbodies : ((s.joinQueue r).setBody r.slot (((s.joinQueue r).entry r.slot).body.withConv .inFlight)).entries =
      (s.setBody r.slot (.held cl { hd with conv := .inFlight })).entries := by
    rw [hentry, State.joinQueue_held hbody]
    exact hset
  rw [State.requestConversion_eq, hidle, hqueue, List.nil_append]
  refine (if_pos hmode).trans ?_
  change { s with
    entries := ((s.joinQueue r).setBody r.slot (((s.joinQueue r).entry r.slot).body.withConv .inFlight)).entries
    convQueue := [], inFlight := some (s.started r) } = _
  rw [hbodies, ← hqueue]
  rfl

/-- The last of the checks of CONVERT pass together. -/
theorem convert_accepted {s : State} {hd : Held} {l : Line} {i : Slot} {n : Nat} (hmode : s.effective[l].mode = .analog)
    (hconv : hd.conv = .none) (hroom : s.convQueue.length < 8) :
    (ensure (s.effective[l].mode = .analog) .mode >>= fun _ => ensure (hd.conv = .none) .busy >>= fun _ =>
      ensure (decide (s.convQueue.length < 8)) .queueFull >>= fun _ => (pure ⟨i, l, n⟩ : Check Request)) = .ok ⟨i, l, n⟩ :=
  (check_bind_of_ok (ensure_of_true (decide_eq_true hmode) _) _).trans ((check_bind_of_ok
    (ensure_of_true (decide_eq_true hconv) _) _).trans (check_bind_of_ok (ensure_of_true (decide_eq_true hroom) _) _))

/-- Settles O43. -/
theorem convertIsQueuedOrStarted : Obligations.ConvertIsQueuedOrStarted := by
  unfold Obligations.ConvertIsQueuedOrStarted
  refine ⟨fun s c tag body hsent => ⟨fun hlength => convert_answers_form hsent hlength, fun h l n hbody =>
      ⟨fun hn => ?_, fun hn hl => ?_⟩⟩, fun l n hn => convertRequest_ok hn,
    fun s c tag h i cl hd l n hn hbody hl hsamples hsent => ?_⟩
  · subst hbody
    exact convert_answers_error hsent (convertRequest_badArgument l hn)
  · subst hbody
    exact convert_answers_error hsent (convertRequest_badLines hn hl)
  · have hline : needLines cl [l] = .ok () := ensure_of_true (by simpa using hl) _
    have hchk := (State.convertChecks_eq hn hbody (convertRequest_ok (l := l) hsamples)).trans (check_bind_of_ok hline _)
    refine ⟨fun hmode => ?_, fun hmode hconv => ?_, fun hmode hconv hfull => ?_, fun hmode hconv hroom hbusy => ?_,
      fun hmode hconv hidle hqueue => ?_⟩
    · exact answers_of_error (cmd := .convert) hsent rfl (hchk.trans (check_bind_of_error (ensure_of_not hmode _) _))
    · exact answers_of_error (cmd := .convert) hsent rfl (hchk.trans ((check_bind_of_ok
        (ensure_of_true (decide_eq_true hmode) _) _).trans (check_bind_of_error (ensure_of_not hconv _) _)))
    · exact answers_of_error (cmd := .convert) hsent rfl (hchk.trans ((check_bind_of_ok
        (ensure_of_true (decide_eq_true hmode) _) _).trans ((check_bind_of_ok
          (ensure_of_true (decide_eq_true hconv) _) _).trans (check_bind_of_error (ensure_of_not (by omega) _) _))))
    · have haccepted := hchk.trans (convert_accepted (i := i) (n := n) hmode hconv hroom)
      obtain ⟨f, hf⟩ := Option.ne_none_iff_exists'.1 hbusy
      have hjoined : s.requestConversion ⟨i, l, n⟩ = s.joinQueue ⟨i, l, n⟩ := by rw [State.requestConversion_eq, hf]
      refine (answers_of_ok (cmd := .convert) hsent rfl haccepted ?_).congr
        (congrArg State.settleAttention (hjoined.trans (State.joinQueue_held hbody))) rfl ?_
      · exact (s.requestConversion_leasesOnly _).slot c
      · dsimp only
        rw [hf]
        rfl
    · have haccepted := hchk.trans (convert_accepted (i := i) (n := n) hmode hconv (hqueue ▸ by decide))
      have hstarted := State.requestConversion_idle (r := ⟨i, l, n⟩) hbody hidle hqueue hmode
      refine (answers_of_ok (cmd := .convert) hsent rfl haccepted ?_).congr (congrArg State.settleAttention hstarted) rfl ?_
      · exact (s.requestConversion_leasesOnly _).slot c
      · dsimp only
        rw [hidle]
        rfl

end Sys2Proof.Machine
end

section
/-!
PROOF. SET PULSE (O29): the fields of its body, which of them it takes, and the pending update that it stores.
-/

namespace Sys2Proof.Machine

/-! ## Refusals with one status -/

/-- Whatever the checks refuse, they refuse with this status and no more bytes. -/
def RefusesWith {α : Type} (st : Status) (x : Check α) : Prop := ∀ a, x = .error a → a = ⟨st, []⟩

section
variable {α β : Type} {st : Status}

theorem RefusesWith.ok (a : α) : RefusesWith st (.ok a : Check α) := nofun

theorem RefusesWith.refuse : RefusesWith st (refuse st : Check α) := fun _ h => (Except.error.inj h).symm

theorem RefusesWith.need (x : Option α) : RefusesWith st (need x st) := by
  cases x with
  | none => exact fun _ h => (Except.error.inj h).symm
  | some a => exact .ok a

theorem RefusesWith.ensure (b : Bool) : RefusesWith st (ensure b st) := by
  cases b with
  | false => exact fun _ h => (Except.error.inj h).symm
  | true => exact .ok ()

theorem RefusesWith.bind {x : Check α} {f : α → Check β} (hx : RefusesWith st x) (hf : ∀ a, RefusesWith st (f a)) :
    RefusesWith st (x >>= f) := by
  cases x with
  | error a => exact fun b hb => hx b (congrArg Except.error (Except.error.inj hb))
  | ok a => exact hf a

end

/-! ## 2-byte numbers -/

theorem number16_bytes {n : Nat} (h : n < 65536) : number16 (BitVec.ofNat 8 (n / 256)) (BitVec.ofNat 8 n) = n := by
  rw [number16, BitVec.toNat_ofNat, BitVec.toNat_ofNat]
  omega

theorem numbersOf_bytes {ns : List Nat} (h : ∀ n ∈ ns, n < 65536) : numbersOf (ns.flatMap bytes16) = some ns := by
  have hpairs : ns.flatMap bytes16 = pairBytes (ns.map fun n => (BitVec.ofNat 8 (n / 256), BitVec.ofNat 8 n)) := by
    rw [pairBytes, List.flatMap_map]
    rfl
  rw [numbersOf, hpairs, pairsOf_pairBytes, Option.map_some, List.map_map]
  exact congrArg some ((List.map_congr_left fun n hn => number16_bytes (h n hn)).trans (List.map_id' ns))

theorem bytes_of_numbersOf {bs : List Byte} {ns : List Nat} (h : numbersOf bs = some ns) : bs = ns.flatMap bytes16 := by
  obtain ⟨ps, hps, rfl⟩ := Option.map_eq_some_iff.1 h
  rw [pairBytes_of_pairsOf bs ps hps, pairBytes, List.flatMap_map]
  exact List.flatMap_congr fun p _ => (bytes16_number16 p.1 p.2).symm

/-- The bytes of a field that its option bit announces. -/
def optionalBytes (n : Option Nat) : List Byte :=
  match n with
  | none => []
  | some n => bytes16 n

theorem optional16_bytes {n : Option Nat} (h : ∀ x ∈ n, x < 65536) (rest : List Byte) :
    optional16 n.isSome (optionalBytes n ++ rest) = .ok (n, rest) := by
  cases n with
  | none => rfl
  | some n => exact congrArg (fun x => Except.ok (some x, rest)) (number16_bytes (h n rfl))

theorem bytes_of_optional16 {present : Bool} {bs rest : List Byte} {n : Option Nat} (h : optional16 present bs = .ok (n, rest)) :
    n.isSome = present ∧ bs = optionalBytes n ++ rest ∧ ∀ x ∈ n, x < 65536 := by
  unfold optional16 at h
  split at h
  · next hp =>
    split at h
    · next hi lo rest' =>
      obtain ⟨rfl, rfl⟩ := Prod.mk.inj (Except.ok.inj h)
      refine ⟨hp.symm, ?_, fun x hx => ?_⟩
      · rw [optionalBytes, bytes16_number16]
        rfl
      · obtain rfl := Option.some.inj hx
        exact Nat.lt_succ_of_le (number16_le hi lo)
    · nomatch h
  · next hp =>
    obtain ⟨rfl, rfl⟩ := Prod.mk.inj (Except.ok.inj h)
    exact ⟨(Bool.eq_false_iff.2 hp).symm, rfl, nofun⟩

/-! ## The given byte and the divider -/

/-- The given byte of a SET PULSE. -/
def givenByte (divider period highs : Bool) (spare : Nat) : Byte :=
  byteOf ((if divider then 1 else 0) + (if period then 2 else 0) + (if highs then 4 else 0) + 8 * spare)

theorem givenByte_bits (divider period highs : Bool) (spare : Nat) :
    (givenByte divider period highs spare).getLsbD 0 = divider ∧ (givenByte divider period highs spare).getLsbD 1 = period ∧
      (givenByte divider period highs spare).getLsbD 2 = highs := by
  simp only [givenByte, byteOf, BitVec.getLsbD_ofNat, Nat.testBit_eq_decide_div_mod_eq]
  cases divider <;> cases period <;> cases highs <;> simp <;> omega

theorem givenByte_of_bits (b : Byte) : b = givenByte (b.getLsbD 0) (b.getLsbD 1) (b.getLsbD 2) (b.toNat / 8) := by
  refine BitVec.eq_of_toNat_eq ?_
  have hb := b.isLt
  rw [givenByte, byteOf, BitVec.toNat_ofNat]
  simp only [BitVec.getLsbD, Nat.testBit_eq_decide_div_mod_eq, decide_eq_true_eq]
  split <;> split <;> split <;> omega

/-- The byte of a divider that is given. -/
def dividerBytes (d : Option Nat) : List Byte :=
  match d with
  | none => []
  | some d => [byteOf d]

theorem isDivider_iff (n : Nat) : isDivider n = true ↔ n ∈ [1, 2, 4, 8, 16, 32, 64, 128] := decide_eq_true_iff

theorem pulseDivider_bytes {d : Option Nat} (h : ∀ x ∈ d, x < 256) (rest : List Byte) :
    pulseDivider d.isSome (dividerBytes d ++ rest) =
      if ∃ x ∈ d, x ∉ [1, 2, 4, 8, 16, 32, 64, 128] then .error ⟨.badArgument, []⟩ else .ok (d, rest) := by
  cases d with
  | none => exact (if_neg nofun).symm
  | some d =>
    have hd : (byteOf d).toNat = d := toNat_byteOf (h d rfl)
    have hbad : (∃ x ∈ some d, x ∉ [1, 2, 4, 8, 16, 32, 64, 128]) ↔ ¬isDivider d = true := by
      rw [isDivider_iff]
      exact ⟨fun ⟨x, hx, hn⟩ => Option.some.inj hx ▸ hn, fun hn => ⟨d, rfl, hn⟩⟩
    change (if isDivider (byteOf d).toNat = true then .ok (some (byteOf d).toNat, rest) else refuse .badArgument) = _
    rw [hd, if_congr hbad rfl rfl, ite_not]
    rfl

theorem bytes_of_pulseDivider {given : Bool} {bs rest : List Byte} {d : Option Nat} (h : pulseDivider given bs = .ok (d, rest)) :
    d.isSome = given ∧ bs = dividerBytes d ++ rest ∧ ∀ x ∈ d, x < 256 := by
  unfold pulseDivider at h
  split at h
  · next hg =>
    split at h
    · next b rest' =>
      split at h
      · obtain ⟨rfl, rfl⟩ := Prod.mk.inj (Except.ok.inj h)
        refine ⟨hg.symm, ?_, fun x hx => ?_⟩
        · rw [dividerBytes, byteOf_toNat]
          rfl
        · obtain rfl := Option.some.inj hx
          exact b.isLt
      · nomatch h
    · nomatch h
  · next hg =>
    obtain ⟨rfl, rfl⟩ := Prod.mk.inj (Except.ok.inj h)
    exact ⟨(Bool.eq_false_iff.2 hg).symm, rfl, nofun⟩

theorem pulseDivider_refuses (given : Bool) (bs : List Byte) : RefusesWith .badArgument (pulseDivider given bs) := by
  unfold pulseDivider
  split
  · split
    · split
      · exact .ok _
      · exact .refuse
    · exact .refuse
  · exact .ok _

theorem optional16_refuses (present : Bool) (bs : List Byte) : RefusesWith .badArgument (optional16 present bs) := by
  unfold optional16
  split
  · split
    · exact .ok _
    · exact .refuse
  · exact .ok _

/-! ## The fields of a SET PULSE -/

theorem PulseRequest.bytes_eq (r : PulseRequest) (spare : Nat) :
    r.bytes spare = givenByte r.divider.isSome r.period.isSome r.highs.isSome spare ::
      (dividerBytes r.divider ++ (optionalBytes r.period ++ match r.highs with | none => [] | some hs => hs.flatMap bytes16)) := by
  obtain ⟨divider, period, highs⟩ := r
  unfold PulseRequest.bytes
  cases divider <;> cases period <;> cases highs <;> simp [givenByte, dividerBytes, optionalBytes]

/-- A period that is given is at least 2 (R122). -/
def periodTaken (period : Option Nat) : Bool :=
  match period with
  | none => true
  | some p => decide (2 ≤ p)

/-- The fields that a body of a SET PULSE gives (R122). -/
def pulseFields (given divider period highs : Bool) (bs : List Byte) : Check PulseRequest := do
  ensure given .badArgument
  let (divider, rest) ← pulseDivider divider bs
  let (period, rest) ← optional16 period rest
  ensure (periodTaken period) .badArgument
  if highs then
    let highs ← need (numbersOf rest) .badArgument
    pure ⟨divider, period, some highs⟩
  else
    ensure rest.isEmpty .badArgument
    pure ⟨divider, period, none⟩

theorem pulseRequest_cons (given : Byte) (bs : List Byte) :
    pulseRequest (given :: bs) = pulseFields (given.getLsbD 0 || given.getLsbD 1 || given.getLsbD 2) (given.getLsbD 0)
      (given.getLsbD 1) (given.getLsbD 2) bs := rfl

theorem pulseFields_refuses (given divider period highs : Bool) (bs : List Byte) :
    RefusesWith .badArgument (pulseFields given divider period highs bs) := by
  refine .bind (.ensure _) fun _ => .bind (pulseDivider_refuses _ _) fun d => .bind (optional16_refuses _ _) fun p =>
    .bind (.ensure _) fun _ => ?_
  split
  · exact .bind (.need _) fun _ => .ok _
  · exact .bind (.ensure _) fun _ => .ok _

theorem pulseRequest_refuses (bs : List Byte) : RefusesWith .badArgument (pulseRequest bs) := by
  cases bs with
  | nil => exact .refuse
  | cons given bs => exact pulseFields_refuses _ _ _ _ _

/-- A body that gives some fields is laid out as these fields are (R122). -/
theorem bytes_of_pulseRequest {bs : List Byte} {r : PulseRequest} (h : pulseRequest bs = .ok r) :
    ∃ spare, spare < 32 ∧ r.Fits ∧ bs = r.bytes spare := by
  cases bs with
  | nil => nomatch h
  | cons given bs =>
    rw [pulseRequest_cons] at h
    obtain ⟨_, -, hfields⟩ := (check_bind_ok_iff _ _ _).1 h
    obtain ⟨⟨d, rest⟩, hd, hperiod⟩ := (check_bind_ok_iff _ _ _).1 hfields
    obtain ⟨⟨p, rest'⟩, hp, hchecked⟩ := (check_bind_ok_iff _ _ _).1 hperiod
    obtain ⟨_, -, hhighs⟩ := (check_bind_ok_iff _ _ _).1 hchecked
    clear h hfields hperiod hchecked
    obtain ⟨hdsome, rfl, hdfit⟩ := bytes_of_pulseDivider hd
    obtain ⟨hpsome, rfl, hpfit⟩ := bytes_of_optional16 hp
    have hbyte := givenByte_of_bits given
    rw [← hdsome, ← hpsome] at hbyte
    have hspare : given.toNat / 8 < 32 := by
      have := given.isLt
      omega
    refine ⟨given.toNat / 8, hspare, ?_⟩
    split at hhighs
    · next hh =>
      obtain ⟨hs, hhs, hr⟩ := (check_bind_ok_iff _ _ _).1 hhighs
      obtain rfl : (⟨d, p, some hs⟩ : PulseRequest) = r := Except.ok.inj hr
      rw [hh] at hbyte
      have hnumbers := (need_eq_ok_iff _ _ _).1 hhs
      obtain rfl := bytes_of_numbersOf hnumbers
      refine ⟨⟨hdfit, hpfit, fun hs' hhs' n hn => ?_⟩, ?_⟩
      · obtain rfl := Option.some.inj hhs'
        exact Nat.lt_succ_of_le (number16_highs_le hnumbers n hn)
      · rw [PulseRequest.bytes_eq]
        exact congrArg (fun b => b :: _) hbyte
    · next hh =>
      obtain ⟨_, hempty, hr⟩ := (check_bind_ok_iff _ _ _).1 hhighs
      obtain rfl : (⟨d, p, none⟩ : PulseRequest) = r := Except.ok.inj hr
      obtain rfl := List.isEmpty_iff.1 (ensure_true_of_ok hempty)
      rw [Bool.eq_false_iff.2 hh] at hbyte
      refine ⟨⟨hdfit, hpfit, nofun⟩, ?_⟩
      rw [PulseRequest.bytes_eq]
      exact congrArg (fun b => b :: _) hbyte

/-- The fields that fit are taken, or refused at the second stage (R122). -/
theorem pulseRequest_bytes {r : PulseRequest} (hfits : r.Fits) (spare : Nat) :
    pulseRequest (r.bytes spare) = if r.Refused then .error ⟨.badArgument, []⟩ else .ok r := by
  obtain ⟨divider, period, highs⟩ := r
  obtain ⟨hd, hp, hh⟩ := hfits
  obtain ⟨hbit0, hbit1, hbit2⟩ := givenByte_bits divider.isSome period.isSome highs.isSome spare
  rw [PulseRequest.bytes_eq, pulseRequest_cons, hbit0, hbit1, hbit2]
  by_cases hgiven : (divider.isSome || period.isSome || highs.isSome) = true
  · refine (check_bind_of_ok (ensure_of_true hgiven _) _).trans ?_
    by_cases hdbad : ∃ x ∈ divider, x ∉ [1, 2, 4, 8, 16, 32, 64, 128]
    · rw [if_pos (.inr (.inl hdbad))]
      exact check_bind_of_error ((pulseDivider_bytes hd _).trans (if_pos hdbad)) _
    · refine (check_bind_of_ok ((pulseDivider_bytes hd _).trans (if_neg hdbad)) _).trans
        ((check_bind_of_ok (optional16_bytes hp _) _).trans ?_)
      by_cases hpbad : ∃ x ∈ period, x < 2
      · rw [if_pos (.inr (.inr hpbad))]
        obtain ⟨x, rfl, hx⟩ := hpbad
        exact check_bind_of_error (ensure_of_not (by omega) _) _
      · have htaken : ¬PulseRequest.Refused ⟨divider, period, highs⟩ := by
          rintro (⟨rfl, rfl, rfl⟩ | h | h)
          · exact absurd hgiven (by decide)
          · exact hdbad h
          · exact hpbad h
        have hperiod : periodTaken period = true := by
          cases period with
          | none => rfl
          | some p => exact decide_eq_true (Nat.le_of_not_lt fun hlt => hpbad ⟨p, rfl, hlt⟩)
        rw [if_neg htaken]
        refine (check_bind_of_ok (ensure_of_true hperiod _) _).trans ?_
        cases highs with
        | none => rfl
        | some hs => exact check_bind_of_ok (need_ok (numbersOf_bytes (hh hs rfl)) _) _
  · have hnone : divider = none ∧ period = none ∧ highs = none := by
      cases divider <;> cases period <;> cases highs <;> simp_all
    rw [if_pos (.inl hnone)]
    exact check_bind_of_error (ensure_of_false (Bool.eq_false_iff.2 hgiven) _) _

/-! ## The pending update -/

section
variable {s : State} {c : Client} {tag h : Byte} {body rest : List Byte}

theorem setPulse_answers_error (hsent : Sent s c .setPulse tag (h :: rest)) {a : Answer} (hrest : pulseRequest rest = .error a) :
    Answers (.setPulse c) s s c tag .badArgument [] := by
  obtain rfl := pulseRequest_refuses rest a hrest
  exact answers_of_error (cmd := .setPulse) hsent rfl (check_bind_of_error hrest _)

/-- A body that is not laid out as some fields are refused. -/
theorem setPulse_answers_form (hsent : Sent s c .setPulse tag body)
    (hform : ∀ (h : Byte) (r : PulseRequest) (spare : Nat), r.Fits → spare < 32 → body ≠ h :: r.bytes spare) :
    Answers (.setPulse c) s s c tag .badArgument [] := by
  by_cases hnil : body = []
  · exact answers_of_error (cmd := .setPulse) hsent rfl (check_bind_of_error (handleFirst_nil hnil) _)
  · obtain ⟨h, rest, rfl⟩ := List.exists_cons_of_ne_nil hnil
    cases hrest : pulseRequest rest with
    | error a => exact setPulse_answers_error hsent hrest
    | ok r =>
      obtain ⟨spare, hspare, hfits, rfl⟩ := bytes_of_pulseRequest hrest
      exact absurd rfl (hform h r spare hfits hspare)

/-- The counts left before the wrap are those of any generator of the group (R123). -/
theorem State.countsToWrap_eq {i : Slot} {x : GenIx} {run : Running} (hx : s.generators[x] = .running run) (hslot : run.slot = i)
    (hcount : ∀ (y : GenIx) (other : Running), s.generators[y] = .running other → other.slot = i → other.count = run.count)
    (p : PulseSetting) : s.countsToWrap i p = p.period - run.count := by
  unfold State.countsToWrap
  cases hrecord : s.groupRecord i with
  | none => exact absurd hslot (State.groupRecord_none hrecord x hx)
  | some r =>
    obtain ⟨y, hy, hyslot⟩ := State.groupRecord_some hrecord
    exact congrArg (p.period - ·) (hcount y r hy hyslot)

end

/-- Settles O29. -/
theorem setPulseStoresUpdate : Obligations.SetPulseStoresUpdate := by
  unfold Obligations.SetPulseStoresUpdate
  refine ⟨fun s c tag body hsent => ⟨setPulse_answers_form hsent, fun h r spare hfits _ hbody hrefused => ?_⟩,
    fun r spare hfits _ htaken => (pulseRequest_bytes hfits spare).trans (if_neg htaken),
    fun s c tag h rest i cl hd g r setting x run hn hbody hkind hpulse hsent hrest hsetting hhighs hperiod hx hslot hcount => ?_⟩
  · subst hbody
    exact setPulse_answers_error hsent ((pulseRequest_bytes hfits spare).trans (if_pos hrefused))
  · subst hsetting
    have hnumber : (match r.highs with | none => true | some hs => decide (hs.length = (pulseLines hd.configs).length)) = true := by
      cases hr : r.highs with
      | none => rfl
      | some hs => exact decide_eq_true (hhighs hs hr)
    refine (answers_of_ok (cmd := .setPulse) (x := (i, cl, hd, g, r)) hsent rfl ((State.setPulseChecks_eq hn hbody hkind hrest).trans
      ((check_bind_of_ok (need_ok hpulse _) _).trans ((check_bind_of_ok (ensure_of_true hnumber _) _).trans
        (check_bind_of_ok (ensure_of_true (List.all_eq_true.2 fun n hn => decide_eq_true (hperiod n hn)) _) _)))) rfl).congr
      rfl rfl ?_
    exact congrArg (fun n => boolByte g.update.isSome :: bytes16 n) (State.countsToWrap_eq hx hslot hcount g.setting)

end Sys2Proof.Machine
end

section
/-!
PROOF. The arbiter: the four grant conditions (O19), what a grant does (O20), and what becomes of an ACQUIRE (O17, O18).
-/

namespace Sys2Proof.Machine

/-! ## The grant conditions -/

/-- A claim that conflicts with a candidate (R51). -/
abbrev Claim.Conflicts (cl : Claim) (k : Candidate) : Prop :=
  (cl.kind = .exclusive ∨ k.kind = .exclusive) ∧ ∃ l ∈ k.lines, l ∈ cl.lines

theorem claimsConflict_comm_iff (cl : Claim) (k : Candidate) :
    claimsConflict cl.kind cl.lines k.kind k.lines = true ↔ cl.Conflicts k := by
  rw [claimsConflict_iff]
  exact and_congr_right fun _ => exists_congr fun l => and_comm

section
variable (s : State) (k : Candidate)

theorem State.unfencedFor_iff : s.unfencedFor k = true ↔ ∀ l ∈ k.lines, inSet l s.fences = false := by
  simp [State.unfencedFor]

theorem State.unheldFor_iff_claims :
    s.unheldFor k = true ↔ ∀ (i : Slot) (cl : Claim), (s.entry i).body.heldClaim = some cl → ¬cl.Conflicts k := by
  rw [State.unheldFor_iff]
  refine forall_congr' fun i => ?_
  unfold EntryBody.heldConflict
  cases (s.entry i).body.heldClaim with
  | none => simp
  | some cl =>
    dsimp only
    rw [Bool.eq_false_iff, ne_eq, claimsConflict_comm_iff]
    exact ⟨fun h cl' hcl => Option.some.inj hcl ▸ h, fun h => h cl rfl⟩

theorem State.unwaitedFor_iff_claims (older : List Slot) :
    s.unwaitedFor older k = true ↔
      ∀ i ∈ older, ∀ (cl : Claim) (w : Waiting), (s.entry i).body = .waiting cl w → ¬cl.Conflicts k := by
  unfold State.unwaitedFor
  rw [List.all_eq_true]
  refine forall₂_congr fun i _ => ?_
  rw [Bool.not_eq_true']
  unfold EntryBody.waitingConflict
  cases (s.entry i).body with
  | waiting cl w =>
    dsimp only
    rw [Bool.eq_false_iff, ne_eq, claimsConflict_comm_iff]
    refine ⟨fun h cl' w' hb => ?_, fun h => h cl w rfl⟩
    obtain ⟨rfl, -⟩ := EntryBody.waiting.inj hb
    exact h
  | _ => simp

theorem State.generatorsFor_iff (older : List Slot) :
    s.generatorsFor older k = true ↔ (1 ≤ k.pulses → k.pulses ≤ s.freeGenerators.length ∧
      ∀ i ∈ older, ∀ (cl : Claim) (w : Waiting), (s.entry i).body = .waiting cl w → pulseLines w.configs = []) := by
  have hwaiting : (older.all fun i => !(s.entry i).body.waitingPulses) = true ↔
      ∀ i ∈ older, ∀ (cl : Claim) (w : Waiting), (s.entry i).body = .waiting cl w → pulseLines w.configs = [] := by
    rw [List.all_eq_true]
    refine forall₂_congr fun i _ => ?_
    unfold EntryBody.waitingPulses
    cases (s.entry i).body with
    | waiting cl w =>
      dsimp only
      rw [Bool.not_not, List.isEmpty_iff]
      refine ⟨fun h cl' w' hb => ?_, fun h => h cl w rfl⟩
      obtain ⟨-, rfl⟩ := EntryBody.waiting.inj hb
      exact h
    | _ => simp
  rw [State.generatorsFor, Bool.or_eq_true, Bool.and_eq_true, decide_eq_true_eq, decide_eq_true_eq, hwaiting,
    Nat.one_le_iff_ne_zero, ← or_iff_not_imp_left]

end

/-- Settles O19. -/
theorem grantConditionsAreFour : Obligations.GrantConditionsAreFour := by
  unfold Obligations.GrantConditionsAreFour
  intro s older k
  rw [State.grantable_iff, State.unfencedFor_iff, State.unheldFor_iff_claims, State.unwaitedFor_iff_claims,
    State.generatorsFor_iff]
  refine and_congr_right fun _ => and_congr ?_ Iff.rfl
  refine forall_congr' fun i => ⟨fun h cl hd hbody => h cl (by rw [hbody]; rfl), fun h cl hcl => ?_⟩
  cases hbody : (s.entry i).body with
  | held cl' hd =>
    rw [hbody] at hcl
    obtain rfl := Option.some.inj hcl
    exact h _ hd hbody
  | _ =>
    rw [hbody] at hcl
    nomatch hcl

/-! ## What a grant does -/

section
variable (s : State) (i : Slot) (cl : Claim) (configs : LineConfigs) (pulse : Option PulseSetting) (due : Option Nat)

/-- The mode-change reports of a grant (R15, R69). -/
theorem State.grantLease_request :
    (s.grantLease i cl configs pulse due).inFlight = s.inFlight.map fun f =>
      { f with disturbed := f.disturbedBetween s.effective (s.grantLease i cl configs pulse due).effective } := by
  cases pulse <;> exact State.configureLines_request _ configs

theorem State.grantLease_frame :
    s.grantLease i cl configs pulse due = { s with
      entries := (s.grantLease i cl configs pulse due).entries
      effective := (s.grantLease i cl configs pulse due).effective
      inFlight := (s.grantLease i cl configs pulse due).inFlight
      generators := (s.grantLease i cl configs pulse due).generators
      notices := (s.grantLease i cl configs pulse due).notices } := by
  cases pulse <;> rfl

/-- The n-th PULSE line of a grant gets the n-th FREE generator (R70, R120). -/
theorem State.grantLease_generator {n : Nat} {g : GenIx} {l : Line} {high : Nat} {p : PulseSetting} (hp : pulse = some p)
    (hg : s.freeGenerators[n]? = some g) (hl : (pulseLines configs)[n]? = some l) (hhigh : p.highs[n]? = some high) :
    (s.grantLease i cl configs pulse due).generators[g] = .running ⟨i, l, p.divider, p.period, high, 0, 0, false⟩ := by
  subst hp
  have hlt : n < (pulseLines configs).length := (List.getElem?_eq_some_iff.1 hl).1
  have hassigned : (s.assigned (pulseLines configs))[n]? = some g := by
    rw [State.assigned, List.getElem?_take_of_lt hlt, hg]
  have hzip : ((pulseLines configs).zip p.highs)[n]? = some (l, high) := List.getElem?_zip_eq_some.2 ⟨hl, hhigh⟩
  rw [State.grantLease_generators, State.startPulses_generator,
    lookup_zip_of_getElem _ (s.assigned_nodup _) _ n g (l, high) hassigned hzip]

theorem State.grantLease_generator_other {g : GenIx} (hg : g ∉ s.assigned (pulseLines configs)) :
    (s.grantLease i cl configs pulse due).generators[g] = s.generators[g] := by
  rw [State.grantLease_generators]
  cases pulse with
  | none => rfl
  | some p => rw [State.startPulses_generator, lookup_zip_of_not_mem _ _ hg]

end

/-- Settles O20. -/
theorem grantMakesHolder : Obligations.GrantMakesHolder := by
  unfold Obligations.GrantMakesHolder
  intro s t i cl configs pulse due _ _ _ ht
  subst ht
  exact ⟨fun j => State.entry_grantLease .., fun l => State.grantLease_effective .., State.grantLease_request ..,
    fun n g l high p hp hg hl hhigh => State.grantLease_generator s i cl configs pulse due hp hg hl hhigh,
    fun g hg => State.grantLease_generator_other s i cl configs pulse due hg,
    fun j => State.noticesOf_grantLease .., State.grantLease_frame ..⟩

/-! ## ACQUIRE: the slot that it takes -/

/-- The first slot of the table with a property is the lowest. -/
theorem find_allSlots {p : Slot → Bool} {i : Slot} (hi : p i = true) (hmin : ∀ j, j < i → p j = false) :
    allSlots.find? p = some i := by
  obtain ⟨k, hk⟩ : ∃ k, allSlots.find? p = some k :=
    Option.isSome_iff_exists.1 (List.find?_isSome.2 ⟨i, List.mem_finRange i, hi⟩)
  obtain ⟨hpk, before, after, hlist, hbefore⟩ := List.find?_eq_some_iff_append.1 hk
  have hsorted : (before ++ k :: after).Pairwise (· < ·) := hlist ▸ List.pairwise_lt_finRange 32
  have hmem : i ∈ before ++ k :: after := hlist ▸ List.mem_finRange i
  obtain hin | hin := List.mem_append.1 hmem
  · have hno := hbefore i hin
    rw [hi] at hno
    nomatch hno
  · obtain rfl | hin := List.mem_cons.1 hin
    · exact hk
    · have hlt : k < i := (List.pairwise_cons.1 (List.pairwise_append.1 hsorted).2.1).1 i hin
      exact absurd hpk (by rw [hmin k hlt]; exact Bool.false_ne_true)

section
variable {s : State} {c : Client} {body : List Byte} {r : AcquireRequest} {i : Slot}

theorem State.freeSlot_eq (hi : (s.entry i).body = .free) (hmin : ∀ j : Slot, j < i → (s.entry j).body ≠ .free) :
    s.freeSlot = some i :=
  find_allSlots (decide_eq_true hi) fun j hj => decide_eq_false (hmin j hj)

theorem State.freeSlot_none (h : ∀ i : Slot, (s.entry i).body ≠ .free) : s.freeSlot = none :=
  List.find?_eq_none.2 fun i _ => by simpa using h i

theorem State.acquireChecks_eq (hr : acquireRequest body = .ok r) :
    s.acquireChecks c body =
      if 8 ≤ (s.ownedSlots c).length then .error ⟨.quota, [byteOf (s.ownedSlots c).length]⟩
      else need s.freeSlot .tableFull >>= fun i => pure (r, i) :=
  check_bind_of_ok hr _

theorem State.acquireChecks_of_slot (hr : acquireRequest body = .ok r) (hquota : (s.ownedSlots c).length < 8)
    (hslot : s.freeSlot = some i) : s.acquireChecks c body = .ok (r, i) :=
  (State.acquireChecks_eq hr).trans ((if_neg (by omega)).trans (check_bind_of_ok (need_ok hslot _) _))

/-- What becomes of an ACQUIRE that passes its checks (R35, R61, R62). -/
def State.acquired (s : State) (c : Client) (r : AcquireRequest) (i : Slot) : State × Answer :=
  if s.grantable s.waitList r.candidate then
    ((s.grantLease i (r.claim c) r.configs r.pulse r.due).settleAttention,
      okWith (handleByte (s.entry i).generation i :: bytes16 r.term))
  else if r.mayWait then
    ((s.queueRequest i c r).settleAttention,
      ⟨.queued, [handleByte (s.entry i).generation i, byteOf (s.waitList.length + 1)]⟩)
  else (s, ⟨s.refusalStatus s.waitList r.candidate, []⟩)

theorem acquireReply_eq (s : State) (c : Client) (body : List Byte) :
    acquireReply c body s = answerWith s (s.acquireChecks c body) fun p => s.acquired c p.1 p.2 := rfl

/-- An ACQUIRE that passes its checks answers with what becomes of it. -/
theorem acquire_answers {u : State} {a : Answer} {tag : Byte} (hsent : Sent s c .acquire tag body)
    (hr : acquireRequest body = .ok r) (hquota : (s.ownedSlots c).length < 8) (hslot : s.freeSlot = some i)
    (hacquired : s.acquired c r i = (u, a)) (hu : u.slot c = s.slot c) :
    Answers (.acquire c) s u c tag a.status a.body := by
  have hanswers := answers_of_ok (cmd := .acquire) hsent (acquireReply_eq s c body)
    (State.acquireChecks_of_slot hr hquota hslot) (by rw [hacquired]; exact hu)
  rw [hacquired] at hanswers
  exact hanswers

end

/-- Settles O17. -/
theorem grantableAcquireIsGranted : Obligations.GrantableAcquireIsGranted := by
  unfold Obligations.GrantableAcquireIsGranted
  intro s c tag body r i hsent hr hquota hi hmin hg
  exact acquire_answers hsent hr hquota (State.freeSlot_eq hi hmin) (if_pos hg)
    ((State.grantLease_leasesOnly s i (r.claim c) r.configs r.pulse r.due).slot c)

/-! ## The first reason of a refusal -/

theorem EntryBody.waiting_iff (b : EntryBody) (cl : Claim) :
    (∃ w, b = .waiting cl w) ↔ b.isWaiting = true ∧ b.claim = some cl := by
  cases b <;> simp [EntryBody.isWaiting, EntryBody.claim]

/-- A candidate is BUSY exactly for a HELD lease or a waiting entry that conflicts with it (R61). -/
theorem State.busy_iff (s : State) (older : List Slot) (k : Candidate) :
    (s.unheldFor k = false ∨ s.unwaitedFor older k = false) ↔
      ∃ (j : Slot) (cl : Claim), ((s.entry j).body.heldClaim = some cl ∨
        (j ∈ older ∧ (s.entry j).body.isWaiting = true ∧ (s.entry j).body.claim = some cl)) ∧ cl.Conflicts k := by
  rw [Bool.eq_false_iff, Bool.eq_false_iff, ne_eq, ne_eq, State.unheldFor_iff_claims, State.unwaitedFor_iff_claims]
  constructor
  · rintro (h | h)
    · simp only [not_forall, not_not] at h
      obtain ⟨j, cl, hcl, hconflict⟩ := h
      exact ⟨j, cl, .inl hcl, hconflict⟩
    · simp only [not_forall, not_not] at h
      obtain ⟨j, hj, cl, w, hbody, hconflict⟩ := h
      exact ⟨j, cl, .inr ⟨hj, (EntryBody.waiting_iff _ cl).1 ⟨w, hbody⟩⟩, hconflict⟩
  · rintro ⟨j, cl, hcl | ⟨hj, hwaiting⟩, hconflict⟩
    · exact .inl fun h => h j cl hcl hconflict
    · obtain ⟨w, hbody⟩ := (EntryBody.waiting_iff _ cl).2 hwaiting
      exact .inr fun h => h j hj cl w hbody hconflict

theorem State.fenced_iff (s : State) (k : Candidate) :
    s.unfencedFor k = false ↔ ∃ l ∈ k.lines, inSet l s.fences = true := by
  rw [Bool.eq_false_iff, ne_eq, State.unfencedFor_iff]
  simp

/-- The first failing condition gives the status (R61). -/
theorem State.refusalStatus_eq (s : State) (older : List Slot) (k : Candidate) :
    (s.unfencedFor k = false → s.refusalStatus older k = .fenced) ∧
      (s.unfencedFor k = true → (s.unheldFor k = false ∨ s.unwaitedFor older k = false) → s.refusalStatus older k = .busy) ∧
      (s.unfencedFor k = true → ¬(s.unheldFor k = false ∨ s.unwaitedFor older k = false) →
        s.refusalStatus older k = .noGenerator) := by
  unfold State.refusalStatus
  cases s.unfencedFor k <;> cases s.unheldFor k <;> cases s.unwaitedFor older k <;> simp

/-- Settles O18. -/
theorem blockedAcquireWaitsOrIsRefused : Obligations.BlockedAcquireWaitsOrIsRefused := by
  unfold Obligations.BlockedAcquireWaitsOrIsRefused
  refine ⟨fun s c tag body r i hsent hr hquota hi hmin hwait hg => ?_, fun s c tag body r hsent hr =>
    ⟨fun hquota => ?_, fun hquota hfull => ?_, fun hquota ⟨i, hi⟩ hwait hg fenced busy hfenced hbusy => ?_⟩⟩
  · have hblocked : ¬s.grantable s.waitList r.candidate = true := Bool.eq_false_iff.1 hg
    exact ⟨s.nextArrival, fun j hj => s.arrival_lt_nextArrival hj,
      acquire_answers hsent hr hquota (State.freeSlot_eq hi hmin) ((if_neg hblocked).trans (if_pos hwait)) rfl⟩
  · exact answers_of_error (cmd := .acquire) hsent rfl ((State.acquireChecks_eq hr).trans (if_pos hquota))
  · exact answers_of_error (cmd := .acquire) hsent rfl ((State.acquireChecks_eq hr).trans ((if_neg (by omega)).trans
      (check_bind_of_error (need_error (State.freeSlot_none hfull) _) _)))
  · obtain ⟨k, hk⟩ : ∃ k, s.freeSlot = some k :=
      Option.isSome_iff_exists.1 (List.find?_isSome.2 ⟨i, List.mem_finRange i, decide_eq_true hi⟩)
    have hblocked : ¬s.grantable s.waitList r.candidate = true := Bool.eq_false_iff.1 hg
    have hrefused := acquire_answers hsent hr hquota hk
      ((if_neg hblocked).trans (if_neg (Bool.eq_false_iff.1 hwait))) rfl
    obtain ⟨hisFenced, hisBusy, hisFull⟩ := s.refusalStatus_eq s.waitList r.candidate
    have hfencedIff : fenced ↔ s.unfencedFor r.candidate = false := hfenced.trans (s.fenced_iff r.candidate).symm
    have hbusyIff : busy ↔ (s.unheldFor r.candidate = false ∨ s.unwaitedFor s.waitList r.candidate = false) :=
      hbusy.trans (s.busy_iff s.waitList r.candidate).symm
    have hunfenced (h : ¬fenced) : s.unfencedFor r.candidate = true := Bool.not_eq_false _ ▸ mt hfencedIff.2 h
    exact ⟨fun hf => hrefused.congr rfl (hisFenced (hfencedIff.1 hf)) rfl,
      fun hf hb => hrefused.congr rfl (hisBusy (hunfenced hf) (hbusyIff.1 hb)) rfl,
      fun hf hb => hrefused.congr rfl (hisFull (hunfenced hf) (mt hbusyIff.2 hb)) rfl⟩

end Sys2Proof.Machine
end

section
/-!
PROOF. How entries end: one entry (O22), the entries of a session (O14), and all of them (O36). What some entries give up is
said once for any set of them (`State.Undone`), and holds of one pass after another.
-/

namespace Sys2Proof.Machine

/-! ## What entries give up at their end -/

/-- The state `t` is `s` after the entries of some slots have given up what they held (R44, R46): of a HELD lease its exclusive
lines, its generators and its conversion, of a waiting entry its place in the wait list. -/
structure State.Undone (s t : State) (ends : Slot → Bool) : Prop where
  plan : t.idlePlan = s.idlePlan
  waits : t.waitList = s.waitList.filter fun j => !(ends j && (s.entry j).body.isWaiting)
  lines : ∀ l : Line, t.effective[l] =
    if ∃ j, ends j = true ∧ (s.entry j).body.holdsExclusive l = true then s.idlePlan[l] else s.effective[l]
  generators : ∀ g : GenIx, t.generators[g] =
    match s.generators[g] with
    | .free => .free
    | .running r => if ends r.slot && (s.entry r.slot).body.heldClaim.isSome then .free else .running r
  queue : t.convQueue = s.convQueue.filter fun r =>
    !(ends r.slot && decide ((s.entry r.slot).body.convState = some .queued))
  request : t.inFlight = s.inFlight.map fun f => { f with
    disturbed := f.disturbedBetween s.effective t.effective
    discard := f.discard || (ends f.request.slot && decide ((s.entry f.request.slot).body.convState = some .inFlight)) }

theorem InFlight.disturbedBetween_self (f : InFlight) (v : Vector LineConfig 24) : f.disturbedBetween v v = f.disturbed := by
  simp [InFlight.disturbedBetween]

/-- Reports of two changes in a row, where each line changes in one of them at most. -/
theorem InFlight.disturbedBetween_trans (f : InFlight) {first second third : Vector LineConfig 24} (d : Bool)
    (h : second[f.request.line] = first[f.request.line] ∨ third[f.request.line] = second[f.request.line]) :
    InFlight.disturbedBetween { f with disturbed := f.disturbedBetween first second, discard := d } second third =
      f.disturbedBetween first third := by
  unfold InFlight.disturbedBetween
  dsimp only
  obtain h | h := h
  · rw [h]
    simp
  · rw [h]
    simp

theorem State.dropConversion_inFlight (t : State) (i : Slot) (v : ConvState) :
    (t.dropConversion i v).inFlight = t.inFlight.map fun f =>
      { f with discard := f.discard || (decide (f.request.slot = i) && decide (v = .inFlight)) } := by
  cases v with
  | inFlight =>
    refine congrArg (fun g => t.inFlight.map g) (funext fun f => ?_)
    by_cases h : f.request.slot = i <;> simp [h]
  | _ => simp [State.dropConversion]

theorem State.returnLines_inFlight (s : State) (cl : Claim) :
    (s.returnLines cl).inFlight = s.inFlight.map fun f =>
      { f with disturbed := f.disturbedBetween s.effective (s.returnLines cl).effective } := by
  unfold State.returnLines
  cases cl.kind with
  | exclusive => exact State.configureLines_request _ _
  | shared => simp [InFlight.disturbedBetween_self]

section
variable (s : State) (i : Slot)

theorem State.undoEntry_inFlight :
    (s.undoEntry i).inFlight = s.inFlight.map fun f => { f with
      disturbed := f.disturbedBetween s.effective (s.undoEntry i).effective
      discard := f.discard || (decide (f.request.slot = i) && decide ((s.entry i).body.convState = some .inFlight)) } := by
  unfold State.undoEntry
  cases hb : (s.entry i).body with
  | held cl h =>
    have heffective : (s.endEffects i cl h).effective = (s.returnLines cl).effective := by
      unfold State.endEffects
      cases h.conv <;> rfl
    have hstopped : ((s.returnLines cl).stopGenerators i).inFlight = (s.returnLines cl).inFlight := rfl
    dsimp only
    rw [heffective, State.endEffects, State.dropConversion_inFlight, hstopped, State.returnLines_inFlight, Option.map_map]
    simp [Function.comp_def, EntryBody.convState]
  | _ => simp [InFlight.disturbedBetween_self, EntryBody.convState, State.leaveWaitList]

theorem State.undoEntry_convQueue :
    (s.undoEntry i).convQueue =
      if (s.entry i).body.convState = some .queued then s.convQueue.filter (fun r => r.slot ≠ i) else s.convQueue := by
  unfold State.undoEntry
  cases hb : (s.entry i).body with
  | held cl h =>
    have hreturned : (s.returnLines cl).convQueue = s.convQueue := by
      unfold State.returnLines
      split <;> rfl
    dsimp only
    unfold State.endEffects
    cases hv : h.conv with
    | queued => simp [State.dropConversion, EntryBody.convState, hv, hreturned]
    | _ => simp [State.dropConversion, EntryBody.convState, hv, hreturned]
  | _ => simp [EntryBody.convState, State.leaveWaitList]

theorem State.undoEntry_generators (g : GenIx) :
    (s.undoEntry i).generators[g] =
      match s.generators[g] with
      | .free => .free
      | .running r => if r.slot = i ∧ (s.entry i).body.heldClaim.isSome then .free else .running r := by
  unfold State.undoEntry
  cases hb : (s.entry i).body with
  | held cl h =>
    have hreturned : (s.returnLines cl).generators = s.generators := by
      unfold State.returnLines
      split <;> rfl
    have hdrop : (s.endEffects i cl h).generators = ((s.returnLines cl).stopGenerators i).generators := by
      unfold State.endEffects
      cases h.conv <;> rfl
    dsimp only
    rw [hdrop, State.stopGenerators_generator, hreturned]
    cases s.generators[g] with
    | free => rfl
    | running r => by_cases h : r.slot = i <;> simp [Generator.recordFor, h, EntryBody.heldClaim]
  | _ =>
    cases hg : s.generators[g] <;> simp [hg, EntryBody.heldClaim, State.leaveWaitList]

/-- What one entry gives up. -/
theorem State.undoEntry_undone : s.Undone (s.undoEntry i) fun j => decide (j = i) where
  plan := by rw [State.undoEntry_eq]
  waits := by
    rw [State.undoEntry_waitList]
    split
    · next hwait =>
      refine List.filter_congr fun j _ => ?_
      by_cases hj : j = i
      · subst hj
        simp [hwait]
      · simp [hj]
    · next hwait =>
      refine (List.filter_eq_self.2 fun j _ => ?_).symm
      by_cases hj : j = i
      · subst hj
        simp [hwait]
      · simp [hj]
  lines l := by
    rw [State.undoEntry_effective, configFor_idleConfigs]
    have hends : (∃ j, decide (j = i) = true ∧ (s.entry j).body.holdsExclusive l = true) ↔
        l ∈ (s.entry i).body.returnedLines := by
      simp [EntryBody.mem_returnedLines]
    by_cases hl : l ∈ (s.entry i).body.returnedLines
    · rw [if_pos hl, if_pos (hends.2 hl)]
      rfl
    · rw [if_neg hl, if_neg (mt hends.1 hl)]
      rfl
  generators g := by
    rw [State.undoEntry_generators]
    cases s.generators[g] with
    | free => rfl
    | running r =>
      by_cases h : r.slot = i
      · subst h
        simp
      · simp [h]
  queue := by
    rw [State.undoEntry_convQueue]
    split
    · next hqueued =>
      refine List.filter_congr fun r _ => ?_
      by_cases h : r.slot = i
      · subst h
        simp [hqueued]
      · simp [h]
    · next hqueued =>
      refine (List.filter_eq_self.2 fun r _ => ?_).symm
      by_cases h : r.slot = i
      · subst h
        simp [hqueued]
      · simp [h]
  request := by
    rw [State.undoEntry_inFlight]
    refine congrArg (fun g => s.inFlight.map g) (funext fun f => ?_)
    by_cases h : f.request.slot = i
    · subst h
      rfl
    · simp [h]

end

section
variable {s t u : State} {ends more : Slot → Bool}

/-- Only what the law speaks of matters. -/
theorem State.Undone.of_eq (h : s.Undone t ends) (hplan : u.idlePlan = t.idlePlan) (hwaits : u.waitList = t.waitList)
    (hlines : u.effective = t.effective) (hgenerators : u.generators = t.generators) (hqueue : u.convQueue = t.convQueue)
    (hrequest : u.inFlight = t.inFlight) : s.Undone u ends where
  plan := hplan.trans h.plan
  waits := hwaits.trans h.waits
  lines l := by rw [hlines]; exact h.lines l
  generators g := by rw [hgenerators]; exact h.generators g
  queue := hqueue.trans h.queue
  request := by rw [hrequest, hlines]; exact h.request

/-- The end of no entry. -/
theorem State.Undone.refl (s : State) : s.Undone s fun _ => false where
  plan := rfl
  waits := (List.filter_eq_self.2 fun _ _ => rfl).symm
  lines l := by simp
  generators g := by cases s.generators[g] <;> rfl
  queue := (List.filter_eq_self.2 fun _ _ => rfl).symm
  request := by simp [InFlight.disturbedBetween_self]

/-- A FREE entry gives up nothing. -/
theorem State.Undone.congr (h : s.Undone t ends) (heq : ∀ j, (s.entry j).body ≠ .free → ends j = more j) : s.Undone t more := by
  have hsame (j : Slot) {b : Bool} (hb : (s.entry j).body = .free → b = false) : (ends j && b) = (more j && b) := by
    by_cases hfree : (s.entry j).body = .free
    · rw [hb hfree, Bool.and_false, Bool.and_false]
    · rw [heq j hfree]
  constructor
  case plan => exact h.plan
  case waits =>
    rw [h.waits]
    refine List.filter_congr fun j _ => congrArg (!·) (hsame j fun hfree => ?_)
    rw [hfree]
    rfl
  case lines =>
    intro l
    rw [h.lines l]
    refine if_congr (exists_congr fun j => ?_) rfl rfl
    have hj := hsame j (b := (s.entry j).body.holdsExclusive l) fun hfree => by rw [hfree]; rfl
    rw [← Bool.and_eq_true, ← Bool.and_eq_true, hj]
  case generators =>
    intro g
    rw [h.generators g]
    cases s.generators[g] with
    | free => rfl
    | running r =>
      have hr := hsame r.slot (b := (s.entry r.slot).body.heldClaim.isSome) fun hfree => by rw [hfree]; rfl
      dsimp only
      rw [hr]
  case queue =>
    rw [h.queue]
    refine List.filter_congr fun r _ => congrArg (!·) (hsame r.slot fun hfree => ?_)
    rw [hfree]
    rfl
  case request =>
    rw [h.request]
    refine congrArg (fun g => s.inFlight.map g) (funext fun f => ?_)
    have hf := hsame f.request.slot (b := decide ((s.entry f.request.slot).body.convState = some .inFlight))
      fun hfree => by rw [hfree]; rfl
    rw [hf]

/-- One pass after another, whose entries are still as they were before the first. -/
theorem State.Undone.trans (h : s.Undone t ends) (hnext : t.Undone u more) (hkept : ∀ j, more j = true → t.entry j = s.entry j) :
    s.Undone u fun j => ends j || more j := by
  have hor (j : Slot) (p : EntryBody → Bool) :
      (ends j && p (s.entry j).body || more j && p (t.entry j).body) = ((ends j || more j) && p (s.entry j).body) := by
    cases hmore : more j with
    | false => cases ends j <;> simp
    | true =>
      rw [hkept j hmore]
      cases ends j <;> simp
  have hlines (l : Line) : u.effective[l] =
      if ∃ j, (ends j || more j) = true ∧ (s.entry j).body.holdsExclusive l = true then s.idlePlan[l] else s.effective[l] := by
    have hsplit : (∃ j, (ends j || more j) = true ∧ (s.entry j).body.holdsExclusive l = true) ↔
        (∃ j, ends j = true ∧ (s.entry j).body.holdsExclusive l = true) ∨
          ∃ j, more j = true ∧ (t.entry j).body.holdsExclusive l = true := by
      rw [← exists_or]
      refine exists_congr fun j => ?_
      rw [← Bool.and_eq_true, ← Bool.and_eq_true, ← Bool.and_eq_true, ← Bool.or_eq_true, hor j fun b => b.holdsExclusive l]
    rw [hnext.lines l, h.lines l, h.plan, if_congr hsplit rfl rfl]
    split <;> split <;> simp_all
  constructor
  case plan => exact hnext.plan.trans h.plan
  case waits =>
    rw [hnext.waits, h.waits, List.filter_filter]
    refine List.filter_congr fun j _ => ?_
    rw [← hor j EntryBody.isWaiting, Bool.not_or, Bool.and_comm]
  case lines => exact hlines
  case generators =>
    intro g
    rw [hnext.generators g, h.generators g]
    cases s.generators[g] with
    | free => rfl
    | running r =>
      have hr := hor r.slot fun b => b.heldClaim.isSome
      dsimp only at hr ⊢
      rw [← hr]
      by_cases hfirst : (ends r.slot && (s.entry r.slot).body.heldClaim.isSome) = true
      · simp [hfirst]
      · simp only [hfirst, Bool.false_or]
        rfl
  case queue =>
    rw [hnext.queue, h.queue, List.filter_filter]
    refine List.filter_congr fun r _ => ?_
    rw [← hor r.slot fun b => decide (b.convState = some .queued), Bool.not_or, Bool.and_comm]
  case request =>
    rw [hnext.request, h.request, Option.map_map]
    refine congrArg (fun g => s.inFlight.map g) (funext fun f => ?_)
    have hf := hor f.request.slot fun b => decide (b.convState = some .inFlight)
    have hreports := f.disturbedBetween_trans (first := s.effective) (second := t.effective)
      (third := u.effective) (f.discard || (ends f.request.slot && decide ((s.entry f.request.slot).body.convState = some .inFlight))) (by
        have hfirst := h.lines f.request.line
        have hsecond := hnext.lines f.request.line
        split at hfirst
        · refine .inr ?_
          rw [hsecond, h.plan, hfirst]
          exact ite_self _
        · exact .inl hfirst)
    rw [Function.comp_apply]
    dsimp only at hf hreports ⊢
    rw [hreports, Bool.or_assoc, hf]

end

end Sys2Proof.Machine
end

section
/-!
PROOF. The end of one entry (O22), of a session (O14) and of everything (O36), each as what some entries give up
(`State.Undone`) and what becomes of the entries themselves.
-/

namespace Sys2Proof.Machine

/-! ## One entry -/

section
variable {s t : State} {i : Slot}

/-- An entry is freed or becomes a tombstone. -/
abbrev State.Ends (s t : State) (i : Slot) : Prop := t = s.retire i ∨ ∃ r, t = s.entomb i r

/-- Apart from the entry and its notices, its end is what it gives up. -/
theorem State.Ends.frame (h : s.Ends t i) : t = { s.undoEntry i with entries := t.entries, notices := t.notices } := by
  obtain rfl | ⟨r, rfl⟩ := h
  · unfold State.retire
    split
    · next hfree =>
      unfold State.undoEntry
      rw [hfree]
    · rfl
  · rfl

theorem State.Ends.undone (h : s.Ends t i) : s.Undone t fun j => decide (j = i) := by
  refine (s.undoEntry_undone i).of_eq ?_ ?_ ?_ ?_ ?_ ?_ <;> rw [h.frame]

end

section
variable {s : State} {i : Slot}

theorem State.undoEntry_waitList_held (hclaim : (s.entry i).body.isWaiting = false) : (s.undoEntry i).waitList = s.waitList := by
  rw [State.undoEntry_waitList, if_neg (Bool.eq_false_iff.1 hclaim)]

theorem State.undoEntry_of_not_held (hclaim : (s.entry i).body.heldClaim = none) :
    s.undoEntry i = { s with waitList := (s.undoEntry i).waitList } := by
  unfold State.undoEntry
  cases hb : (s.entry i).body with
  | held cl h =>
    rw [hb] at hclaim
    nomatch hclaim
  | _ => rfl

end

/-- Settles O22. -/
theorem entriesEnd : Obligations.EntriesEnd := by
  unfold Obligations.EntriesEnd
  refine ⟨fun s t i cl h hbody ht => ?_, fun s t i hclaim ht => ?_, fun s i hfree => ⟨?_, ?_⟩, fun s i hfree => if_pos hfree,
    fun s i cl r => ⟨fun h hbody => ?_, fun w hbody => ?_, ?_⟩, fun s i j r hj => ⟨?_, ?_, ?_, ?_⟩⟩
  · have hundone := State.Ends.undone ht
    refine ⟨fun l => ?_, fun g => ?_, ?_, ?_, ?_⟩
    · rw [hundone.lines l]
      refine if_congr ?_ rfl rfl
      simp [hbody, EntryBody.holdsExclusive, EntryBody.heldClaim]
    · rw [hundone.generators g]
      cases s.generators[g] with
      | free => rfl
      | running r =>
        refine if_congr ?_ rfl rfl
        rw [Bool.and_eq_true, decide_eq_true_eq]
        refine ⟨fun hr => hr.1, fun hr => ⟨hr, ?_⟩⟩
        rw [hr, hbody]
        rfl
    · have hqueue : t.convQueue = (s.undoEntry i).convQueue := by rw [State.Ends.frame ht]
      rw [hqueue, State.undoEntry_convQueue, hbody]
      exact if_congr (Option.some_inj (a := h.conv)) rfl rfl
    · rw [hundone.request]
      refine congrArg (fun k => s.inFlight.map k) (funext fun f => ?_)
      have hdiscard : (decide (f.request.slot = i) && decide ((s.entry f.request.slot).body.convState = some .inFlight)) =
          (decide (h.conv = .inFlight) && decide (f.request.slot = i)) := by
        by_cases hf : f.request.slot = i
        · rw [hf, hbody, EntryBody.convState_held]
          simp
        · simp [hf]
      rw [hdiscard]
    · have hwaits : (s.undoEntry i).waitList = s.waitList := State.undoEntry_waitList_held (by rw [hbody]; rfl)
      rw [State.Ends.frame ht, State.undoEntry_eq, hwaits]
  · rw [State.Ends.frame ht, State.undoEntry_of_not_held hclaim, State.undoEntry_waitList]
  · rw [State.entry_retire, if_pos ⟨rfl, hfree⟩]
  · rw [State.noticesOf_retire, if_pos ⟨rfl, hfree⟩]
  · rw [State.entry_entomb, if_pos rfl, hbody]
    rfl
  · rw [State.entry_entomb, if_pos rfl, hbody]
    rfl
  · rw [State.noticesOf_entomb, if_pos rfl]
  · rw [State.entry_retire, if_neg fun h => hj h.1]
  · rw [State.entry_entomb, if_neg hj]
  · rw [State.noticesOf_retire, if_neg fun h => hj h.1]
  · rw [State.noticesOf_entomb, if_neg hj]

/-! ## Several entries -/

section
variable (is : List Slot) (hn : is.Nodup)
include hn

theorem State.retireAll_undone : ∀ s : State, s.Undone (s.retireAll is) fun j => decide (j ∈ is) := by
  induction is with
  | nil => exact fun s => (State.Undone.refl s).congr fun j _ => (decide_eq_false List.not_mem_nil).symm
  | cons i is ih =>
    intro s
    obtain ⟨hi, hn⟩ := List.nodup_cons.1 hn
    refine ((State.Ends.undone (.inl rfl)).trans (ih hn (s.retire i)) fun j hj => ?_).congr fun j _ => by simp
    rw [State.entry_retire, if_neg]
    rintro ⟨rfl, -⟩
    exact hi (of_decide_eq_true hj)

/-- The notices of the entries of a list go with them. -/
theorem State.noticesOf_retireAll (j : Slot) : ∀ s : State,
    (s.retireAll is).noticesOf j = if j ∈ is ∧ (s.entry j).body ≠ .free then PendingSet.empty else s.noticesOf j := by
  induction is with
  | nil => exact fun s => by simp
  | cons i is ih =>
    intro s
    obtain ⟨hi, hn⟩ := List.nodup_cons.1 hn
    rw [State.retireAll_cons, ih hn, State.entry_retire, State.noticesOf_retire]
    by_cases hji : j = i
    · subst hji
      simp [hi]
    · simp [hji]

end

/-- The end of some entries leaves all but leases. -/
theorem State.retireAll_leasesOnly (s : State) (is : List Slot) : s.LeasesOnly (s.retireAll is) :=
  State.retireAll_keeps s.LeasesOnly (fun t i h => h.trans (t.retire_leasesOnly i)) is s (Eq.refl s)

/-- The attention lines are settled by no part of an entry's end. -/
theorem State.retireAll_attention (s : State) (is : List Slot) :
    (s.retireAll is).attnI = s.attnI ∧ (s.retireAll is).attnS = s.attnS :=
  State.retireAll_keeps (fun t => t.attnI = s.attnI ∧ t.attnS = s.attnS) (fun t i h => by
    rw [State.Ends.frame (s := t) (i := i) (.inl rfl), State.undoEntry_eq]
    exact h) is s ⟨rfl, rfl⟩

/-! ## A session -/

section
variable {s : State} {c : Client}

theorem State.mem_ownedSlots_decide (c : Client) (j : Slot) :
    decide (j ∈ s.ownedSlots c) = (s.entry j).body.ownedBy c := by
  rw [Bool.eq_iff_iff, decide_eq_true_eq, State.mem_ownedSlots]

theorem EntryBody.not_free_of_ownedBy {b : EntryBody} (h : b.ownedBy c = true) : b ≠ .free := by
  rintro rfl
  nomatch h

theorem State.entry_teardown (s : State) (c : Client) (reason : LastEnd) (j : Slot) :
    (s.teardown c reason).entry j =
      if (s.entry j).body.ownedBy c then ⟨(s.entry j).generation + 1, .free⟩ else s.entry j := by
  have hretired : (s.teardown c reason).entry j = (s.retireAll (s.ownedSlots c)).entry j := rfl
  rw [hretired, State.entry_retireAll _ (s.ownedSlots_nodup c)]
  refine if_congr ?_ rfl rfl
  rw [State.mem_ownedSlots]
  exact ⟨fun h => h.1, fun h => ⟨h, EntryBody.not_free_of_ownedBy h⟩⟩

theorem State.noticesOf_teardown (s : State) (c : Client) (reason : LastEnd) (j : Slot) :
    (s.teardown c reason).noticesOf j = if (s.entry j).body.ownedBy c then PendingSet.empty else s.noticesOf j := by
  have hretired : (s.teardown c reason).noticesOf j = (s.retireAll (s.ownedSlots c)).noticesOf j := rfl
  rw [hretired, State.noticesOf_retireAll _ (s.ownedSlots_nodup c)]
  refine if_congr ?_ rfl rfl
  rw [State.mem_ownedSlots]
  exact ⟨fun h => h.1, fun h => ⟨h, EntryBody.not_free_of_ownedBy h⟩⟩

theorem State.teardown_undone (s : State) (c : Client) (reason : LastEnd) :
    s.Undone (s.teardown c reason) fun j => (s.entry j).body.ownedBy c :=
  ((State.retireAll_undone _ (s.ownedSlots_nodup c) s).congr fun j _ => State.mem_ownedSlots_decide c j).of_eq
    rfl rfl rfl rfl rfl rfl

theorem State.client_retireAll (s : State) (is : List Slot) (c : Client) : (s.retireAll is).client c = s.client c := by
  unfold State.client
  rw [s.retireAll_leasesOnly is]

/-- What a teardown changes of the client (R167). -/
theorem State.teardown_frame (s : State) (c : Client) (reason : LastEnd) :
    s.teardown c reason = { s with
      entries := (s.teardown c reason).entries, notices := (s.teardown c reason).notices
      waitList := (s.teardown c reason).waitList, effective := (s.teardown c reason).effective
      generators := (s.teardown c reason).generators, convQueue := (s.teardown c reason).convQueue
      inFlight := (s.teardown c reason).inFlight, gained := s.gained.set c none, cursors := s.cursors.set c 31
      clients := s.clients.set c ((s.client c).ended reason) } := by
  obtain ⟨hattnI, hattnS⟩ := s.retireAll_attention (s.ownedSlots c)
  have hframe := s.retireAll_leasesOnly (s.ownedSlots c)
  unfold State.LeasesOnly at hframe
  rw [hattnI, hattnS] at hframe
  have hclient := s.client_retireAll (s.ownedSlots c) c
  rw [State.teardown_eq]
  generalize s.retireAll (s.ownedSlots c) = t at hframe hclient
  change { t with
    gained := t.gained.set c none, cursors := t.cursors.set c 31, clients := t.clients.set c ((t.client c).ended reason) } = _
  rw [hclient, hframe]
  rfl

end

/-- Settles O14. -/
theorem teardownEndsSession : Obligations.TeardownEndsSession := by
  unfold Obligations.TeardownEndsSession
  intro s t c reason ht
  subst ht
  have hundone := s.teardown_undone c reason
  exact ⟨fun i => s.entry_teardown c reason i, fun i => s.noticesOf_teardown c reason i, hundone.waits, hundone.lines,
    hundone.generators, hundone.queue, hundone.request, s.teardown_frame c reason⟩

end Sys2Proof.Machine
end

section
/-!
PROOF. CLEAR ALL (O36): the sessions that it ends one by one (`State.Dismissed`), then every entry that is left.
-/

namespace Sys2Proof.Machine

/-! ## Several sessions -/

/-- Port I after the slots of some clients are emptied. -/
def PortIState.emptied (p : PortIState) (out : Client → Bool) : PortIState :=
  { p with bus := match p.bus with | .reading k r => .reading k (if out k then ⟨[], false⟩ else r) | b => b }

/-- Port S after the slots of some clients are emptied. -/
def PortSState.emptied (p : PortSState) (out : Client → Bool) : PortSState :=
  { p with window := match p.window with | .fetch k r => .fetch k (if out k then ⟨[], false⟩ else r) | w => w }

theorem PortIState.emptied_none (p : PortIState) : p.emptied (fun _ => false) = p := by
  obtain ⟨bus, acked, out⟩ := p
  cases bus <;> rfl

theorem PortSState.emptied_none (p : PortSState) : p.emptied (fun _ => false) = p := by
  obtain ⟨window, out⟩ := p
  cases window <;> rfl

theorem PortIState.afterEmptying_emptied (p : PortIState) (out : Client → Bool) (n : Client) :
    (p.emptied out).afterEmptying n = p.emptied fun k => out k || decide (k = n) := by
  rw [PortIState.afterEmptying_eq]
  obtain ⟨bus, acked, bytes⟩ := p
  cases bus with
  | reading k r => by_cases hk : k = n <;> cases ho : out k <;> simp [PortIState.emptied, hk, ho]
  | _ => rfl

theorem PortSState.afterEmptying_emptied (p : PortSState) (out : Client → Bool) (n : Client) :
    (p.emptied out).afterEmptying n = p.emptied fun k => out k || decide (k = n) := by
  rw [PortSState.afterEmptying_eq]
  obtain ⟨window, bytes⟩ := p
  cases window with
  | fetch k r => by_cases hk : k = n <;> cases ho : out k <;> simp [PortSState.emptied, hk, ho]
  | _ => rfl

/-- Some client of a set owns the entry. -/
def EntryBody.ownedIn (b : EntryBody) (out : Client → Bool) : Bool :=
  match b.claim with
  | none => false
  | some cl => out cl.owner

theorem EntryBody.ownedBy_eq (b : EntryBody) (n : Client) : b.ownedBy n = b.ownedIn fun k => decide (k = n) := by
  cases b <;> rfl

theorem EntryBody.ownedIn_or (b : EntryBody) (out more : Client → Bool) :
    b.ownedIn (fun k => out k || more k) = (b.ownedIn out || b.ownedIn more) := by
  cases b <;> rfl

/-- The state `t` is `s` after the sessions of some clients have ended for CLEAR ALL, and their slots are emptied (R172). -/
structure State.Dismissed (s t : State) (out : Client → Bool) : Prop where
  entry : ∀ j : Slot, t.entry j =
    if (s.entry j).body.ownedIn out then ⟨(s.entry j).generation + 1, .free⟩ else s.entry j
  notices : ∀ j : Slot, t.noticesOf j = if (s.entry j).body.ownedIn out then PendingSet.empty else s.noticesOf j
  undone : s.Undone t fun j => (s.entry j).body.ownedIn out
  client : ∀ n : Client, t.client n = if out n then (s.client n).ended .cleared else s.client n
  slot : ∀ n : Client, t.slot n = if out n then ⟨.none, false, false⟩ else s.slot n
  gained : ∀ n : Client, t.gained[n] = if out n then none else s.gained[n]
  cursor : ∀ n : Client, t.cursors[n] = if out n then 31 else s.cursors[n]
  portI : t.portI = s.portI.emptied out
  portS : t.portS = s.portS.emptied out
  frame : t = { s with
    entries := t.entries, notices := t.notices, waitList := t.waitList, effective := t.effective
    generators := t.generators, convQueue := t.convQueue, inFlight := t.inFlight, clients := t.clients
    slots := t.slots, gained := t.gained, cursors := t.cursors, portI := t.portI, portS := t.portS }

theorem EntryBody.ownedIn_none (b : EntryBody) : b.ownedIn (fun _ => false) = false := by cases b <;> rfl

theorem EntryBody.free_ownedIn (out : Client → Bool) : EntryBody.free.ownedIn out = false := rfl

theorem State.Dismissed.refl (s : State) : s.Dismissed s fun _ => false where
  entry j := by rw [EntryBody.ownedIn_none]; rfl
  notices j := by rw [EntryBody.ownedIn_none]; rfl
  undone := (State.Undone.refl s).congr fun j _ => (EntryBody.ownedIn_none _).symm
  client n := rfl
  slot n := rfl
  gained n := rfl
  cursor n := rfl
  portI := s.portI.emptied_none.symm
  portS := s.portS.emptied_none.symm
  frame := rfl

theorem vector_set_getElem {α : Type} {n : Nat} (v : Vector α n) (i j : Fin n) (a : α) :
    (v.set i a)[j] = if j = i then a else v[j] := by
  by_cases h : j = i
  · rw [if_pos h, h, vector_set_self]
  · rw [if_neg h, vector_set_of_ne v h]

/-- One more session. -/
theorem State.Dismissed.clearClient {s t : State} {out : Client → Bool} (h : s.Dismissed t out) (n : Client) :
    s.Dismissed (t.clearClient n) fun k => out k || decide (k = n) := by
  have howned (j : Slot) : (t.entry j).body.ownedBy n =
      (!(s.entry j).body.ownedIn out && (s.entry j).body.ownedIn fun k => decide (k = n)) := by
    rw [h.entry j]
    cases hj : (s.entry j).body.ownedIn out with
    | true => rfl
    | false => exact EntryBody.ownedBy_eq _ n
  have hframe := t.teardown_frame n .cleared
  have hundone : s.Undone (t.teardown n .cleared) fun j => (s.entry j).body.ownedIn out || (t.entry j).body.ownedBy n := by
    refine h.undone.trans (t.teardown_undone n .cleared) fun j hj => ?_
    rw [howned, Bool.and_eq_true, Bool.not_eq_true'] at hj
    rw [h.entry j, hj.1]
    rfl
  constructor
  case entry =>
    intro j
    refine (t.entry_teardown n .cleared j).trans ?_
    rw [howned, h.entry j, EntryBody.ownedIn_or]
    cases (s.entry j).body.ownedIn out <;> rfl
  case notices =>
    intro j
    refine (t.noticesOf_teardown n .cleared j).trans ?_
    rw [howned, h.notices j, EntryBody.ownedIn_or]
    cases (s.entry j).body.ownedIn out <;> rfl
  case undone =>
    refine (hundone.congr fun j _ => ?_).of_eq rfl rfl rfl rfl rfl rfl
    rw [howned, EntryBody.ownedIn_or]
    cases (s.entry j).body.ownedIn out <;> rfl
  case client =>
    intro k
    have hclient : (t.clearClient n).client k = (t.teardown n .cleared).client k := rfl
    rw [hclient, State.client, hframe]
    refine (vector_set_getElem t.clients n k _).trans ?_
    have hk := h.client k
    by_cases hkn : k = n
    · subst hkn
      rw [if_pos rfl, hk]
      cases out k <;> simp [ClientRecord.ended]
    · rw [if_neg hkn, show t.clients[k] = t.client k from rfl, hk]
      cases out k <;> simp [hkn]
  case slot =>
    intro k
    refine (State.slot_emptySlot _ n k).trans ?_
    rw [State.slot_teardown, h.slot k]
    by_cases hkn : k = n <;> cases out k <;> simp [hkn]
  case gained =>
    intro k
    have hgained : (t.clearClient n).gained = t.gained.set n none := by
      change (t.teardown n .cleared).gained = _
      rw [hframe]
    rw [hgained, vector_set_getElem, h.gained k]
    by_cases hkn : k = n <;> cases out k <;> simp [hkn]
  case cursor =>
    intro k
    have hcursors : (t.clearClient n).cursors = t.cursors.set n 31 := by
      change (t.teardown n .cleared).cursors = _
      rw [hframe]
    rw [hcursors, vector_set_getElem, h.cursor k]
    by_cases hkn : k = n <;> cases out k <;> simp [hkn]
  case portI =>
    have hport : (t.teardown n .cleared).portI = t.portI := by rw [hframe]
    change (t.teardown n .cleared).portI.afterEmptying n = _
    rw [hport, h.portI, PortIState.afterEmptying_emptied]
  case portS =>
    have hport : (t.teardown n .cleared).portS = t.portS := by rw [hframe]
    change (t.teardown n .cleared).portS.afterEmptying n = _
    rw [hport, h.portS, PortSState.afterEmptying_emptied]
  case frame =>
    have hemptied : t.clearClient n = { t.teardown n .cleared with
        slots := (t.clearClient n).slots, portI := (t.clearClient n).portI, portS := (t.clearClient n).portS } := rfl
    have hfirst := h.frame
    generalize t.clearClient n = u at hemptied ⊢
    rw [hemptied, hframe, hfirst]

theorem State.dismissed_foldl (ns : List Client) : ∀ {s t : State} {out : Client → Bool}, s.Dismissed t out →
    s.Dismissed (ns.foldl State.clearClient t) fun k => out k || decide (k ∈ ns) := by
  induction ns with
  | nil =>
    intro s t out h
    simpa using h
  | cons n ns ih =>
    intro s t out h
    have hnext := ih (h.clearClient n)
    have hout : (fun k => out k || decide (k ∈ n :: ns)) = fun k => (out k || decide (k = n)) || decide (k ∈ ns) := by
      funext k
      simp [Bool.or_assoc]
    rw [hout]
    exact hnext

/-! ## CLEAR ALL -/

/-- A scan of a list without a waiting entry does nothing (R66). -/
theorem scanFrom_of_none (newer : List Slot) : ∀ (older : List Slot) (s : State),
    (∀ i ∈ newer, (s.entry i).body.isWaiting = false) → scanFrom older newer s = s := by
  induction newer with
  | nil => exact fun _ _ _ => rfl
  | cons i newer ih =>
    intro older s h
    have hi := h i (.head _)
    unfold scanFrom
    cases hb : (s.entry i).body with
    | waiting cl w =>
      rw [hb] at hi
      nomatch hi
    | _ => exact ih older s fun j hj => h j (.tail _ hj)

/-- The clients that CLEAR ALL tears down (R172). -/
def State.tornDown (s : State) (c n : Client) : Bool := decide (n ≠ c ∧ (s.client n).attached = true)

theorem State.mem_clearedClients (s : State) (c n : Client) : n ∈ s.clearedClients c ↔ n ≠ c ∧ (s.client n).attached = true := by
  simp [State.clearedClients, allClients]

theorem clientBit : ∀ n k : Client, (1#8 <<< k.val).getLsbD n.val = decide (n = k) := by decide

theorem clientMask_bit (ns : List Client) (n : Client) : (clientMask ns).getLsbD n.val = decide (n ∈ ns) := by
  induction ns with
  | nil => simp [clientMask]
  | cons k ns ih =>
    have hcons : clientMask (k :: ns) = (1#8 <<< k.val) ||| clientMask ns := rfl
    have hbit : (1#8 <<< k.val).getLsbD n.val = decide (n = k) := clientBit n k
    rw [hcons, BitVec.getLsbD_or, ih, hbit]
    simp [Bool.decide_or]

/-- The sessions that CLEAR ALL ends. -/
theorem State.cleared_dismissed (s : State) (c : Client) :
    s.Dismissed ((s.clearedClients c).foldl State.clearClient s) (s.tornDown c) := by
  have hall := State.dismissed_foldl (s.clearedClients c) (State.Dismissed.refl s)
  have hout : (fun k => false || decide (k ∈ s.clearedClients c)) = s.tornDown c := by
    funext k
    rw [Bool.false_or, State.tornDown]
    exact decide_eq_decide.2 (s.mem_clearedClients c k)
  rwa [hout] at hall

/-- After the entries that are left have ended, every entry is FREE (R49). -/
theorem State.entry_retireAll_used (t : State) (j : Slot) :
    (t.retireAll t.usedSlots).entry j =
      ⟨if (t.entry j).body = .free then (t.entry j).generation else (t.entry j).generation + 1, .free⟩ := by
  rw [State.entry_retireAll _ t.usedSlots_nodup]
  by_cases hfree : (t.entry j).body = .free
  · rw [if_neg fun h => h.2 hfree, if_pos hfree, ← hfree]
  · rw [if_pos ⟨by simp [State.usedSlots, hfree], hfree⟩, if_neg hfree]

theorem State.noticesOf_retireAll_used (t : State) (j : Slot) :
    (t.retireAll t.usedSlots).noticesOf j = if (t.entry j).body = .free then t.noticesOf j else PendingSet.empty := by
  rw [State.noticesOf_retireAll _ t.usedSlots_nodup]
  by_cases hfree : (t.entry j).body = .free
  · rw [if_neg fun h => h.2 hfree, if_pos hfree]
  · rw [if_pos ⟨by simp [State.usedSlots, hfree], hfree⟩, if_neg hfree]

theorem State.clearAll_eq (s : State) (c : Client) :
    s.clearAll c = (((s.clearedClients c).foldl State.clearClient s).retireAll
      ((s.clearedClients c).foldl State.clearClient s).usedSlots).settleAttention := by
  have hscan (t : State) : (t.retireAll t.usedSlots).grantScan = t.retireAll t.usedSlots :=
    scanFrom_of_none _ [] _ fun i _ => by rw [State.entry_retireAll_used]; rfl
  exact congrArg State.settleAttention (hscan _)

section
variable {s t : State} {out : Client → Bool} (h : s.Dismissed t out)
include h

/-- After the sessions, every entry that is left. -/
theorem State.Dismissed.entry_cleared (j : Slot) :
    (t.retireAll t.usedSlots).entry j =
        ⟨if (s.entry j).body = .free then (s.entry j).generation else (s.entry j).generation + 1, .free⟩ ∧
      (t.retireAll t.usedSlots).noticesOf j = if (s.entry j).body = .free then s.noticesOf j else PendingSet.empty := by
  rw [State.entry_retireAll_used, State.noticesOf_retireAll_used, h.entry j, h.notices j]
  by_cases hfree : (s.entry j).body = .free
  · rw [hfree, EntryBody.free_ownedIn]
    simp [hfree]
  · cases (s.entry j).body.ownedIn out <;> simp [hfree]

theorem State.Dismissed.undone_cleared : s.Undone (t.retireAll t.usedSlots) fun _ => true := by
  have hused (j : Slot) : (j ∈ t.usedSlots) ↔ (s.entry j).body.ownedIn out = false ∧ (s.entry j).body ≠ .free := by
    have hmem : j ∈ t.usedSlots ↔ (t.entry j).body ≠ .free := by simp [State.usedSlots]
    rw [hmem, h.entry j]
    cases (s.entry j).body.ownedIn out <;> simp
  refine (h.undone.trans (State.retireAll_undone _ t.usedSlots_nodup t) fun j hj => ?_).congr fun j hfree => ?_
  · rw [h.entry j, ((hused j).1 (of_decide_eq_true hj)).1]
    rfl
  · cases howned : (s.entry j).body.ownedIn out with
    | true => rfl
    | false => exact decide_eq_true ((hused j).2 ⟨howned, hfree⟩)

end

/-- Settles O36. -/
theorem clearAllFreesEverything : Obligations.ClearAllFreesEverything := by
  unfold Obligations.ClearAllFreesEverything
  refine ⟨fun s c tag body hc hsent hne => ?_, fun s c tag hc hsent => ?_⟩
  · exact answers_of_error (cmd := .clearAll) hsent rfl ((State.needSupervisor_bind hc _).trans (emptyBody_error hne))
  · have hanswers := answers_of_ok (cmd := .clearAll) (chk := s.clearAllChecks c [])
      (act := fun _ => (s.clearAll c, okWith [byteOf s.usedSlots.length, clientMask (s.clearedClients c)])) (x := ()) hsent rfl
      (State.needSupervisor_bind hc _) (s.slot_clearAll c)
    have hdismissed := s.cleared_dismissed c
    have heq := s.clearAll_eq c
    generalize (s.clearedClients c).foldl State.clearClient s = t at hdismissed heq
    have hundone := hdismissed.undone_cleared
    have hleases := t.retireAll_leasesOnly t.usedSlots
    have hentry := hdismissed.entry_cleared
    generalize t.retireAll t.usedSlots = v at hundone hleases hentry heq
    rw [heq] at hanswers
    refine ⟨v.settleAttention, clientMask (s.clearedClients c), hanswers, fun n => ?_, hentry, ?_, fun l => ?_, fun g => ?_, ?_, ?_,
      fun n => ?_, ?_, ?_, ?_⟩
    · rw [clientMask_bit, decide_eq_true_eq, State.mem_clearedClients]
    · refine hundone.waits.trans ?_
      simp only [Bool.true_and]
    · refine (hundone.lines l).trans ?_
      rw [← ite_not]
      refine if_congr ?_ rfl rfl
      rw [State.exclusiveSlot_none_iff]
      simp
    · refine (hundone.generators g).trans ?_
      cases s.generators[g] <;> simp only [Bool.true_and]
    · refine hundone.queue.trans ?_
      simp only [Bool.true_and]
    · refine hundone.request.trans ?_
      simp only [Bool.true_and]
      rfl
    · have hclient : v.client n = t.client n ∧ v.slot n = t.slot n ∧ v.gained[n] = t.gained[n] ∧ v.cursors[n] = t.cursors[n] := by
        rw [hleases]
        exact ⟨rfl, rfl, rfl, rfl⟩
      obtain ⟨hrecord, hslot, hgained, hcursor⟩ := hclient
      have hfields : v.settleAttention.client n = (if s.tornDown c n then (s.client n).ended .cleared else s.client n) ∧
          v.settleAttention.slot n = (if s.tornDown c n then ⟨.none, false, false⟩ else s.slot n) ∧
          v.settleAttention.gained[n] = (if s.tornDown c n then none else s.gained[n]) ∧
          v.settleAttention.cursors[n] = (if s.tornDown c n then 31 else s.cursors[n]) :=
        ⟨hrecord.trans (hdismissed.client n), hslot.trans (hdismissed.slot n), hgained.trans (hdismissed.gained n),
          hcursor.trans (hdismissed.cursor n)⟩
      by_cases hn : n ≠ c ∧ (s.client n).attached = true
      · rw [show s.tornDown c n = true from decide_eq_true hn] at hfields
        rw [if_pos hn]
        exact hfields
      · rw [show s.tornDown c n = false from decide_eq_false hn] at hfields
        rw [if_neg hn]
        exact hfields
    · have hport : v.settleAttention.portI = t.portI := by
        change v.portI = _
        rw [hleases]
      refine hport.trans (hdismissed.portI.trans ?_)
      unfold PortIState.emptied State.tornDown
      cases s.portI.bus <;> simp only [decide_eq_true_eq]
    · have hport : v.settleAttention.portS = t.portS := by
        change v.portS = _
        rw [hleases]
      refine hport.trans (hdismissed.portS.trans ?_)
      unfold PortSState.emptied State.tornDown
      cases s.portS.window <;> simp only [decide_eq_true_eq]
    · have hframe := hdismissed.frame
      have hleft : v.settleAttention = { v with attnI := v.settleAttention.attnI, attnS := v.settleAttention.attnS } := rfl
      generalize v.settleAttention = u at hleft
      rw [hleft, hleases, hframe]

end Sys2Proof.Machine
end

section
/-!
PROOF. The grant scan (O21): what a pass changes (`State.Scanned`), the turn of each entry (`scanFrom_append`), and the pass
that finds nothing grantable.
-/

namespace Sys2Proof.Machine

/-! ## What a pass changes -/

/-- The entry of a slot of the list has been granted, and left the list (R66, R68). -/
structure State.Granted (s t : State) (i : Slot) : Prop where
  waited : i ∈ s.waitList
  left : i ∉ t.waitList
  holds : ∃ cl w h, (s.entry i).body = .waiting cl w ∧
    t.entry i = ⟨(s.entry i).generation, .held cl h⟩ ∧ h.configs = w.configs ∧ h.remaining = cl.term ∧
    h.due = w.due ∧ h.pulse.map PulseGroup.setting = w.pulse ∧ h.watch = none ∧ h.conv = .none ∧ h.result = none ∧
    t.noticesOf i = { s.noticesOf i with granted := true }

/-- The line's configuration comes from a request that has been granted. -/
abbrev State.GrantedLine (s t : State) (l : Line) (k : LineConfig) : Prop :=
  ∃ i ∈ s.waitList, i ∉ t.waitList ∧ ∃ cl w, (s.entry i).body = .waiting cl w ∧ configFor w.configs l = some k

/-- What a pass over some of the wait list has changed so far (R66, R68 to R70). -/
structure State.Scanned (s t : State) : Prop where
  entry : ∀ i : Slot, (t.entry i = s.entry i ∧ t.noticesOf i = s.noticesOf i) ∨ s.Granted t i
  waits : t.waitList.Sublist s.waitList
  left : ∀ i ∈ s.waitList, i ∉ t.waitList → ∃ cl h, (t.entry i).body = .held cl h
  frame : t = { s with
    entries := t.entries, notices := t.notices, waitList := t.waitList, effective := t.effective
    inFlight := t.inFlight, generators := t.generators }
  line : ∀ l : Line, t.effective[l] = s.effective[l] ∨ s.GrantedLine t l t.effective[l]
  generator : ∀ g : GenIx, t.generators[g] = s.generators[g] ∨ (s.generators[g] = .free ∧ ∃ r, t.generators[g] = .running r ∧
    r.slot ∈ s.waitList ∧ r.slot ∉ t.waitList ∧ r.count = 0 ∧ r.prescale = 0 ∧ r.counting = false)
  idle : s.inFlight = none → t.inFlight = none
  request : ∀ f, s.inFlight = some f → ∃ d, t.inFlight = some { f with disturbed := d } ∧ (f.disturbed = true → d = true) ∧
    (s.effective[f.request.line].mode ≠ t.effective[f.request.line].mode → d = true) ∧
    (d = f.disturbed ∨ ∃ k, s.GrantedLine t f.request.line k)

theorem State.Scanned.refl (s : State) : s.Scanned s where
  entry _ := .inl ⟨rfl, rfl⟩
  waits := List.Sublist.refl _
  left _ hi hleft := absurd hi hleft
  frame := rfl
  line _ := .inl rfl
  generator _ := .inl rfl
  idle h := h
  request f hf := ⟨f.disturbed, hf, id, fun h => absurd rfl h, .inl rfl⟩

theorem State.mem_leaveWaitList (t : State) (i j : Slot) : j ∈ (t.leaveWaitList i).waitList ↔ j ∈ t.waitList ∧ j ≠ i := by
  simp [State.leaveWaitList]

/-- One more entry of the list is granted. -/
theorem State.Scanned.grant {s t : State} (h : s.Scanned t) {i : Slot} {cl : Claim} {w : Waiting} (hi : i ∈ s.waitList)
    (hbody : (t.entry i).body = .waiting cl w) :
    s.Scanned ((t.leaveWaitList i).grantLease i cl w.configs w.pulse w.due) := by
  have hsame : t.entry i = s.entry i ∧ t.noticesOf i = s.noticesOf i := by
    refine (h.entry i).resolve_right fun hgranted => ?_
    obtain ⟨_, _, _, _, hheld, _⟩ := hgranted.holds
    rw [hheld] at hbody
    nomatch hbody
  have hbody' : (s.entry i).body = .waiting cl w := hsame.1 ▸ hbody
  have hentry (j : Slot) := State.entry_grantLease (t.leaveWaitList i) i j cl w.configs w.pulse w.due
  have hnotices (j : Slot) := State.noticesOf_grantLease (t.leaveWaitList i) i j cl w.configs w.pulse w.due
  have hwaits : ((t.leaveWaitList i).grantLease i cl w.configs w.pulse w.due).waitList = (t.leaveWaitList i).waitList :=
    State.grantLease_waitList ..
  have heffective (l : Line) := State.grantLease_effective (t.leaveWaitList i) i cl w.configs w.pulse w.due l
  have hrequest := State.grantLease_request (t.leaveWaitList i) i cl w.configs w.pulse w.due
  have hframe := State.grantLease_frame (t.leaveWaitList i) i cl w.configs w.pulse w.due
  have hgenerators := State.grantLease_generators (t.leaveWaitList i) i cl w.configs w.pulse w.due
  generalize (t.leaveWaitList i).grantLease i cl w.configs w.pulse w.due = u at *
  have hstay {j : Slot} (hj : j ∉ t.waitList) : j ∉ u.waitList := fun hu => by
    rw [hwaits, State.mem_leaveWaitList] at hu
    exact hj hu.1
  have hout : i ∉ u.waitList := fun hu => by
    rw [hwaits, State.mem_leaveWaitList] at hu
    exact hu.2 rfl
  have hline {l : Line} {k : LineConfig} : s.GrantedLine t l k → s.GrantedLine u l k :=
    fun ⟨j, hj, hleft, hk⟩ => ⟨j, hj, hstay hleft, hk⟩
  constructor
  case entry =>
    intro j
    by_cases hj : j = i
    · subst hj
      refine .inr ⟨hi, hout, cl, w, heldAtGrant cl w.configs w.pulse
        ((t.leaveWaitList j).assigned (pulseLines w.configs)) w.due, hbody', ?_, rfl, rfl, rfl, ?_, rfl, rfl, rfl, ?_⟩
      · rw [hentry, if_pos rfl, ← hsame.1]
        rfl
      · cases hp : w.pulse <;> simp [heldAtGrant]
      · rw [hnotices, if_pos rfl, ← hsame.2]
        rfl
    · have hkept : u.entry j = t.entry j ∧ u.noticesOf j = t.noticesOf j := by
        rw [hentry, hnotices, if_neg hj, if_neg hj]
        exact ⟨rfl, rfl⟩
      refine (h.entry j).imp (fun hold => ⟨hkept.1.trans hold.1, hkept.2.trans hold.2⟩) fun hold => ?_
      obtain ⟨cl', w', hd, hwas, hnow, hrest⟩ := hold.holds
      refine ⟨hold.waited, hstay hold.left, cl', w', hd, hwas, hkept.1.trans hnow, ?_⟩
      rw [hkept.2]
      exact hrest
  case waits =>
    rw [hwaits]
    exact List.filter_sublist.trans h.waits
  case left =>
    intro j hj hleft
    rw [hentry]
    by_cases hji : j = i
    · rw [if_pos hji]
      exact ⟨_, _, rfl⟩
    · rw [if_neg hji]
      exact h.left j hj fun hin => hleft (by rw [hwaits, State.mem_leaveWaitList]; exact ⟨hin, hji⟩)
  case frame =>
    have hold := h.frame
    rw [hframe, State.leaveWaitList, hold]
  case line =>
    intro l
    rw [heffective l]
    cases hk : configFor w.configs l with
    | none => exact (h.line l).imp id hline
    | some k => exact .inr ⟨i, hi, hout, cl, w, hbody', hk⟩
  case generator =>
    intro g
    rw [hgenerators]
    cases hp : w.pulse with
    | none =>
      exact (h.generator g).imp id fun ⟨hfree, r, hr, hin, hleft, hrest⟩ => ⟨hfree, r, hr, hin, hstay hleft, hrest⟩
    | some p =>
      rw [State.startPulses_generator]
      cases hlookup : (((t.leaveWaitList i).assigned (pulseLines w.configs)).zip ((pulseLines w.configs).zip p.highs)).lookup g with
      | none =>
        exact (h.generator g).imp id fun ⟨hfree, r, hr, hin, hleft, hrest⟩ => ⟨hfree, r, hr, hin, hstay hleft, hrest⟩
      | some lh =>
        have hassigned : g ∈ (t.leaveWaitList i).assigned (pulseLines w.configs) := (List.of_mem_zip (mem_of_lookup hlookup)).1
        have hfree : t.generators[g] = .free := (State.mem_freeGenerators (s := t) g).1 (List.mem_of_mem_take hassigned)
        refine .inr ⟨?_, _, rfl, hi, hout, rfl, rfl, rfl⟩
        obtain hsame | ⟨-, r, hr, -⟩ := h.generator g
        · rw [← hsame, hfree]
        · nomatch hfree.symm.trans hr
  case idle =>
    intro hnone
    rw [hrequest, show (t.leaveWaitList i).inFlight = none from h.idle hnone]
    rfl
  case request =>
    intro f hf
    obtain ⟨d, hd, hmarked, hmode, hcause⟩ := h.request f hf
    refine ⟨InFlight.disturbedBetween { f with disturbed := d } t.effective u.effective, ?_, fun hm => ?_, fun hne => ?_, ?_⟩
    · rw [hrequest, show (t.leaveWaitList i).inFlight = _ from hd]
      rfl
    · rw [InFlight.disturbedBetween, hmarked hm, Bool.true_or]
    · unfold InFlight.disturbedBetween
      by_cases hfirst : s.effective[f.request.line].mode = t.effective[f.request.line].mode
      · rw [hfirst] at hne
        rw [decide_eq_true hne, Bool.or_true]
      · rw [hmode hfirst, Bool.true_or]
    · cases hk : configFor w.configs f.request.line with
      | none =>
        have hsameLine : u.effective[f.request.line] = t.effective[f.request.line] := by
          rw [heffective, hk]
          rfl
        have hsameMark : InFlight.disturbedBetween { f with disturbed := d } t.effective u.effective = d := by
          simp [InFlight.disturbedBetween, hsameLine]
        rw [hsameMark]
        exact hcause.imp id fun ⟨k, hgranted⟩ => ⟨k, hline hgranted⟩
      | some k => exact .inr ⟨k, i, hi, hout, cl, w, hbody', hk⟩

theorem State.Scanned.scanFrom {s : State} (newer : List Slot) (hnewer : ∀ i ∈ newer, i ∈ s.waitList) :
    ∀ {older : List Slot} {t : State}, s.Scanned t → s.Scanned (scanFrom older newer t) := by
  induction newer with
  | nil => exact fun h => h
  | cons i newer ih =>
    intro older t h
    have ih := @ih fun j hj => hnewer j (.tail _ hj)
    unfold Machine.scanFrom
    split
    · next cl w hbody =>
      split
      · exact ih (h.grant (hnewer i (.head _)) hbody)
      · exact ih h
    · exact ih h

/-! ## The turn of each entry -/

/-- A pass over some slots leaves the entries of the others. -/
theorem entry_scanFrom (newer : List Slot) {j : Slot} : ∀ (older : List Slot) (s : State), j ∉ newer →
    (scanFrom older newer s).entry j = s.entry j := by
  induction newer with
  | nil => exact fun _ _ _ => rfl
  | cons i newer ih =>
    intro older s hj
    obtain ⟨hji, hj⟩ := not_or.1 (mt List.mem_cons.2 hj)
    unfold scanFrom
    split
    · split
      · rw [ih _ _ hj, State.entry_grantLease, if_neg hji]
        rfl
      · exact ih _ _ hj
    · exact ih _ _ hj

/-- A pass is one over the first slots, then one over the others, with those of the first that still wait as older ones. -/
theorem scanFrom_append (first second : List Slot) : ∀ (older : List Slot) (s : State), first.Nodup →
    scanFrom older (first ++ second) s =
      scanFrom (older ++ first.filter fun j => ((scanFrom older first s).entry j).body.isWaiting) second
        (scanFrom older first s) := by
  induction first with
  | nil =>
    intro older s _
    rw [List.filter_nil, List.append_nil]
    rfl
  | cons i first ih =>
    intro older s hn
    obtain ⟨hi, hn⟩ := List.nodup_cons.1 hn
    /- The rest of the first slots leaves the entry of `i` as it is at its turn. -/
    have hturn (acc : List Slot) (t : State) : (((scanFrom acc first t).entry i).body.isWaiting) = (t.entry i).body.isWaiting := by
      rw [entry_scanFrom _ _ _ hi]
    rw [List.cons_append]
    cases hbody : (s.entry i).body with
    | waiting cl w =>
      by_cases hg : s.grantable older (waitingCandidate cl w) = true
      · have hstep (rest : List Slot) : scanFrom older (i :: rest) s =
            scanFrom older rest ((s.leaveWaitList i).grantLease i cl w.configs w.pulse w.due) := by
          conv_lhs => unfold scanFrom
          rw [hbody]
          exact if_pos hg
        have hheld : (((s.leaveWaitList i).grantLease i cl w.configs w.pulse w.due).entry i).body.isWaiting = false := by
          rw [State.entry_grantLease, if_pos rfl]
          rfl
        rw [hstep, hstep, ih _ _ hn, List.filter_cons_of_neg (by rw [hturn, hheld]; exact Bool.false_ne_true)]
      · have hstep (rest : List Slot) : scanFrom older (i :: rest) s = scanFrom (older ++ [i]) rest s := by
          conv_lhs => unfold scanFrom
          rw [hbody]
          exact if_neg hg
        rw [hstep, hstep, ih _ _ hn, List.filter_cons_of_pos (by rw [hturn, hbody]; rfl), List.append_assoc]
        rfl
    | _ =>
      have hstep (rest : List Slot) : scanFrom older (i :: rest) s = scanFrom older rest s := by
        conv_lhs => unfold scanFrom
        rw [hbody]
      rw [hstep, hstep, ih _ _ hn, List.filter_cons_of_neg (by rw [hturn, hbody]; exact Bool.false_ne_true)]

/-- A pass over slots none of which is grantable at its turn. -/
theorem scanFrom_of_settled (newer : List Slot) : ∀ (older : List Slot) (s : State), SettledLaw s →
    s.waitList = older ++ newer → (∀ i ∈ newer, (s.entry i).body.isWaiting = true) → scanFrom older newer s = s := by
  induction newer with
  | nil => exact fun _ _ _ _ _ => rfl
  | cons i newer ih =>
    intro older s hs hlist hwaiting
    unfold scanFrom
    cases hbody : (s.entry i).body with
    | waiting cl w =>
      refine (if_neg (Bool.eq_false_iff.1 (hs older newer i hlist cl w hbody))).trans ?_
      exact ih (older ++ [i]) s hs (by rw [hlist, List.append_assoc]; rfl) fun j hj => hwaiting j (.tail _ hj)
    | _ =>
      have hi := hwaiting i (.head _)
      rw [hbody] at hi
      nomatch hi

/-- Settles O21. -/
theorem grantScanOnlyGrants : Obligations.GrantScanOnlyGrants := by
  unfold Obligations.GrantScanOnlyGrants
  refine ⟨fun s t ht => ?_, fun s u older newer still i cl w hs hlist hbody hu hstill => ?_, fun s hs hwaiting =>
    scanFrom_of_settled s.waitList [] s hs rfl hwaiting⟩
  · have h : s.Scanned t := ht ▸ (State.Scanned.refl s).scanFrom s.waitList fun _ hi => hi
    refine ⟨fun i => (h.entry i).imp id fun hg => ⟨hg.waited, hg.left, hg.holds⟩, h.waits, h.left, h.frame, h.line, h.generator,
      h.idle, fun f hf => ?_⟩
    obtain ⟨d, hd, hmarked, hmode, hcause⟩ := h.request f hf
    refine ⟨d, hd, hmarked, hmode, hcause.imp id ?_⟩
    rintro ⟨k, j, hj, hleft, cl, w, hbody, hk⟩
    exact ⟨j, hj, hleft, cl, w, hbody, by rw [hk]; exact Option.some_ne_none k⟩
  · obtain ⟨hnodup, -, -⟩ := hs
    rw [hlist] at hnodup
    have hi : i ∉ older := fun hin => (List.nodup_middle.1 hnodup |> List.nodup_cons.1).1 (List.mem_append_left _ hin)
    have hbody' : (u.entry i).body = .waiting cl w := by
      rw [hu, entry_scanFrom _ _ _ hi, hbody]
    have hscan : s.grantScan = scanFrom still (i :: newer) u := by
      have happend := scanFrom_append older (i :: newer) [] s (List.nodup_append.1 hnodup).1
      rw [← hlist, ← hu, List.nil_append, ← hstill] at happend
      exact happend
    have hturn : scanFrom still (i :: newer) u =
        if u.grantable still (waitingCandidate cl w) then
          scanFrom still newer ((u.leaveWaitList i).grantLease i cl w.configs w.pulse w.due)
        else scanFrom (still ++ [i]) newer u := by
      conv_lhs => unfold scanFrom
      rw [hbody']
    exact ⟨fun hg => hscan.trans (hturn.trans (if_pos hg)), fun hg => hscan.trans (hturn.trans (if_neg (Bool.eq_false_iff.1 hg)))⟩

end Sys2Proof.Machine
end

section
/-!
PROOF. The next notice (O37), and what a tick does to an entry (O38) and to a session (O39).
-/

namespace Sys2Proof.Machine

/-! ## FETCH NOTICE -/

theorem kindByte_eq (more : Bool) : kindByte 1 more = (if more then 0x81 else 0x01) ∧ kindByte 2 more = if more then 0x82 else 0x02 := by
  cases more <;> exact ⟨rfl, rfl⟩

section
variable {s : State} {c : Client}

theorem fetchNotice_answers {u : State} {a : Answer} {tag : Byte} (hsent : Sent s c .fetchNotice tag [])
    (hfetch : s.fetch c = (u, a)) : Answers (.fetchNotice c) s u c tag a.status a.body := by
  have hanswers := answers_of_ok (cmd := .fetchNotice) (chk := emptyBody []) (act := fun _ => s.fetch c) (x := ()) hsent rfl rfl
    (s.fetch_proper c).1
  rw [hfetch] at hanswers
  exact hanswers

/-- The next entry in the order of the fetch is the first one that the client owns with a notice (R151). -/
theorem State.fetchSlot_some {k : Fin 32} {i : Slot} (hi : i = s.cursors[c] + 1 + k) (howned : (s.entry i).body.ownedBy c = true)
    (hnotices : s.noticesOf i ≠ PendingSet.empty)
    (hfirst : ∀ j : Fin 32, j < k → (s.entry (s.cursors[c] + 1 + j)).body.ownedBy c = true →
      s.noticesOf (s.cursors[c] + 1 + j) = PendingSet.empty) : s.fetchSlot c = some i := by
  subst hi
  unfold State.fetchSlot fetchOrder
  rw [List.find?_map, find_allSlots (i := k)]
  · rfl
  · exact Bool.and_eq_true_iff.2 ⟨howned, decide_eq_true hnotices⟩
  · intro j hj
    rw [Function.comp_apply, Bool.and_eq_false_iff]
    cases hown : (s.entry (s.cursors[c] + 1 + j)).body.ownedBy c with
    | false => exact .inl rfl
    | true => exact .inr (decide_eq_false fun hne => hne (hfirst j hj hown))

theorem State.fetchSlot_none (h : ∀ i : Slot, (s.entry i).body.ownedBy c = true → s.noticesOf i = PendingSet.empty) :
    s.fetchSlot c = none := by
  refine List.find?_eq_none.2 fun i _ hi => ?_
  obtain ⟨howned, hnotices⟩ := Bool.and_eq_true_iff.1 hi
  exact of_decide_eq_true hnotices (h i howned)

theorem State.fetch_gained {giver : Client} (hgiver : s.gained[c] = some giver) :
    s.fetch c = (({ s with gained := s.gained.set c none } : State).settleAttention,
      okWith [kindByte 1 (({ s with gained := s.gained.set c none } : State).hasNotice c), 0x01, byteOf giver.val]) := by
  unfold State.fetch
  rw [hgiver]

theorem State.fetch_lease {i : Slot} (hgained : s.gained[c] = none) (hslot : s.fetchSlot c = some i) :
    s.fetch c = ((s.fetchLease c i).settleAttention, okWith (s.leaseBody i ((s.fetchLease c i).hasNotice c))) := by
  unfold State.fetch
  rw [hgained, hslot]

theorem State.fetch_nothing (hgained : s.gained[c] = none) (hslot : s.fetchSlot c = none) :
    s.fetch c = (s, okWith [kindByte 0 false]) := by
  unfold State.fetch
  rw [hgained, hslot]

end

/-- The entry after its CONVERTED is fetched (R152). -/
theorem EntryBody.fetched_eq (b : EntryBody) (converted : Bool) :
    (if converted then b.overrunCleared else b) =
      match converted, b with
      | true, .held cl h => .held cl { h with result := h.result.map fun r => { r with overrun := false } }
      | true, .ended cl t => .ended cl { t with result := t.result.map fun r => { r with overrun := false } }
      | _, b => b := by
  cases converted <;> cases b <;> rfl

/-- The remaining term that DUE reports (R189). -/
theorem EntryBody.remaining_bytes (b : EntryBody) :
    bytes16 b.remaining = match b with | .held _ h => bytes16 h.remaining | _ => [0, 0] := by
  cases b with
  | held cl h => rfl
  | _ => exact (by decide : bytes16 0 = [0, 0])

/-- The body of a LEASE response, reason by reason (R189). -/
theorem State.leaseBody_eq (s : State) (i : Slot) (more : Bool) :
    s.leaseBody i more =
      [if more then 0x82 else 0x02, handleByte (s.entry i).generation i, byteOf (s.entry i).body.stateCode,
          byteOf ((if (s.noticesOf i).granted then 1 else 0) + (if (s.noticesOf i).due then 2 else 0)
            + (if (s.noticesOf i).ended.isSome then 4 else 0) + (if (s.noticesOf i).edge.isSome then 8 else 0)
            + (if (s.noticesOf i).converted then 16 else 0) + if (s.noticesOf i).pulseApplied then 32 else 0)]
        ++ (if (s.noticesOf i).due then
            match (s.entry i).body with | .held _ h => bytes16 h.remaining | _ => [0, 0]
          else [])
        ++ (match (s.noticesOf i).ended with | none => [] | some r => [r.code])
        ++ (match (s.noticesOf i).edge with | none => [] | some e => maskBytes e.changed ++ [byteOf e.count])
        ++ (if (s.noticesOf i).converted then
            match (s.entry i).body.result with
            | none => []
            | some r => [byteOf r.line.val, r.statusByte] ++ bytes16 (r.value.getD 0)
          else []) := by
  unfold State.leaseBody payloadBytes
  dsimp only
  rw [(kindByte_eq more).2, EntryBody.remaining_bytes, ← List.append_assoc, ← List.append_assoc, ← List.append_assoc]
  rfl

/-- Settles O37. -/
theorem fetchReturnsNextNotice : Obligations.FetchReturnsNextNotice := by
  unfold Obligations.FetchReturnsNextNotice
  refine ⟨fun s c tag body hsent hne => answers_of_error (cmd := .fetchNotice) hsent rfl (emptyBody_error hne),
    fun s c tag hsent => ⟨fun giver hgiver u hu => ?_, fun k i p body u hgained hi howned hp hne hfirst hbody hu => ?_,
      fun hgained hnone => fetchNotice_answers hsent (State.fetch_nothing hgained (State.fetchSlot_none hnone))⟩⟩
  · subst hu
    exact (fetchNotice_answers hsent (State.fetch_gained hgiver)).congr rfl rfl (congrArg (fun b => [b, 0x01, byteOf giver.val])
      (kindByte_eq _).1)
  · subst hp
    have hslot := State.fetchSlot_some hi howned hne hfirst
    have hfetched : s.fetchLease c i = u := by
      rw [hu, hbody]
      exact congrArg (fun b => { (s.setBody i b).discardNotices i with cursors := s.cursors.set c i })
        (EntryBody.fetched_eq (s.entry i).body (s.noticesOf i).converted)
    have hfetch := State.fetch_lease hgained hslot
    rw [hfetched] at hfetch
    refine (fetchNotice_answers hsent hfetch).congr rfl rfl ?_
    exact State.leaseBody_eq s i _

/-! ## A tick reaches an entry -/

section
variable {s v : State} {i : Slot} {row : Instr}

theorem exec_entryTick (hrow : row ∈ [Instr.termTick i, .lapse i, .waitTick i, .waitExpiry i]) (s : State) :
    exec row s = .next (s.tickReachesEntry i) := by
  simp only [List.mem_cons, List.not_mem_nil, or_false] at hrow
  obtain rfl | rfl | rfl | rfl := hrow <;> rfl

theorem State.tickReachesEntry_none (h : s.entryTicks[i] = false) : s.tickReachesEntry i = s := if_neg (Bool.eq_false_iff.1 h)

theorem State.tickReachesEntry_taken (h : s.entryTicks[i] = true) :
    s.tickReachesEntry i = ({ s with entryTicks := s.entryTicks.set i false } : State).entryTakesTick i := if_pos h

theorem State.entryTakesTick_held {cl : Claim} {h : Held} (hbody : (s.entry i).body = .held cl h) :
    s.entryTakesTick i = if h.remaining ≤ 1 then s.lapseLease i else s.countTerm i cl h := by
  unfold State.entryTakesTick
  rw [hbody]

theorem State.entryTakesTick_unlimited {cl : Claim} {w : Waiting} (hbody : (s.entry i).body = .waiting cl w) (hwait : w.wait = none) :
    s.entryTakesTick i = s := by
  unfold State.entryTakesTick
  rw [hbody]
  dsimp only
  rw [hwait]

theorem State.entryTakesTick_waiting {cl : Claim} {w : Waiting} {wl : WaitLimit} (hbody : (s.entry i).body = .waiting cl w)
    (hwait : w.wait = some wl) :
    s.entryTakesTick i = if wl.remaining ≤ 1 then s.expireWait i else s.countWait i cl w wl := by
  unfold State.entryTakesTick
  rw [hbody]
  dsimp only
  rw [hwait]

end

/-- A term that is counted, and DUE at its mark (R80, R82). -/
theorem State.countTerm_eq (s : State) (i : Slot) (cl : Claim) (h : Held) :
    s.countTerm i cl h = ({ s with
      entries := s.entries.set i ⟨(s.entry i).generation, .held cl { h with remaining := h.remaining - 1 }⟩
      notices := if h.due = some (h.remaining - 1) then s.notices.set i { s.noticesOf i with due := true }
        else s.notices } : State).settleAttention := by
  unfold State.countTerm State.postIfDue
  dsimp only
  split <;> rfl

/-- Settles O38. -/
theorem ticksSetOutAndReachEntries : Obligations.TicksSetOutAndReachEntries := by
  unfold Obligations.TicksSetOutAndReachEntries
  refine ⟨fun s => ⟨fun hactive hdue => ?_, fun hnot => ?_⟩, by decide, fun s v row i hrow => ⟨fun hnone => ?_, fun htick hv => ?_⟩⟩
  · exact congrArg Host.Outcome.next (if_pos (Bool.and_eq_true_iff.2 ⟨hactive, decide_eq_true hdue⟩))
  · refine congrArg Host.Outcome.next (if_neg fun h => ?_)
    obtain ⟨hactive, hdue⟩ := Bool.and_eq_true_iff.1 h
    obtain hoff | hearly := hnot
    · exact absurd hactive (Bool.eq_false_iff.1 hoff)
    · exact absurd (of_decide_eq_true hdue) (Nat.not_le_of_lt hearly)
  · rw [exec_entryTick hrow, State.tickReachesEntry_none hnone]
  · have hexec (t : State) (ht : v.entryTakesTick i = t) : exec row s = .next t := by
      rw [exec_entryTick hrow, State.tickReachesEntry_taken htick, ← hv, ht]
    have hentry : v.entry i = s.entry i := by rw [hv]; rfl
    refine ⟨fun cl h hbody => ⟨fun hleft => hexec _ ?_, fun hlast => hexec _ ?_⟩, fun cl w hbody => ⟨fun hwait => hexec _ ?_,
      fun limit left hwait hleft => hexec _ ?_, fun limit left hwait hlast => hexec _ ?_⟩, fun hfree => hexec _ ?_,
      fun cl t hbody => hexec _ ?_⟩
    · rw [State.entryTakesTick_held (hentry ▸ hbody), if_neg (by omega), State.countTerm_eq, hv]
      rfl
    · exact (State.entryTakesTick_held (hentry ▸ hbody)).trans (if_pos hlast)
    · exact State.entryTakesTick_unlimited (hentry ▸ hbody) hwait
    · rw [State.entryTakesTick_waiting (hentry ▸ hbody) hwait, if_neg (Nat.not_le_of_lt hleft), hv]
      rfl
    · exact (State.entryTakesTick_waiting (hentry ▸ hbody) hwait).trans (if_pos hlast)
    · unfold State.entryTakesTick
      rw [hentry, hfree]
    · unfold State.entryTakesTick
      rw [hentry, hbody]

/-! ## A tick reaches a session -/

theorem State.clientTakesTick_none {s : State} {c : Client} (h : (s.client c).count = none) : s.clientTakesTick c = s := by
  unfold State.clientTakesTick
  rw [h]

theorem State.clientTakesTick_some {s : State} {c : Client} {n : Nat} (h : (s.client c).count = some n) :
    s.clientTakesTick c = if n ≤ 1 then s.expireSession c else s.setClient c { s.client c with count := some (n - 1) } := by
  unfold State.clientTakesTick
  rw [h]

/-- Settles O39. -/
theorem tickReachesSession : Obligations.TickReachesSession := by
  unfold Obligations.TickReachesSession
  intro s v row c hrow
  have hrun : exec row s = .next (s.tickReachesClient c) := by
    simp only [List.mem_cons, List.not_mem_nil, or_false] at hrow
    obtain rfl | rfl := hrow <;> rfl
  refine ⟨fun hnone => ?_, fun htick hv => ?_⟩
  · exact hrun.trans (congrArg Host.Outcome.next (if_neg (Bool.eq_false_iff.1 hnone)))
  · have hexec (t : State) (ht : v.clientTakesTick c = t) : exec row s = .next t := by
      refine hrun.trans (congrArg Host.Outcome.next ((if_pos htick).trans ?_))
      rw [← hv, ht]
    have hclient : v.client c = s.client c := by rw [hv]; rfl
    refine ⟨fun hcount => hexec _ ?_, fun n hcount hleft => hexec _ ?_, fun n hcount hlast => hexec _ ?_⟩
    · exact State.clientTakesTick_none (hclient ▸ hcount)
    · rw [State.clientTakesTick_some (hclient ▸ hcount), if_neg (by omega), State.setClient, hclient, hv]
    · exact (State.clientTakesTick_some (hclient ▸ hcount)).trans (if_pos hlast)

end Sys2Proof.Machine
end

section
/-!
PROOF. Pads by their modes (O41), and the resets, the release of a reset and the end of the initialization period (O46).
-/

namespace Sys2Proof.Machine

/-! ## Pads -/

/-- The one generator that runs for a line is the one that the pad follows (R115). -/
theorem State.generatorOn_of_unique {s : State} {l : Line} {g : GenIx} {r : Running} (hg : s.generators[g] = .running r)
    (hl : r.line = l)
    (hunique : ∀ (g' : GenIx) (r' : Running), s.generators[g'] = .running r' → r'.line = l → g' = g) :
    s.generatorOn l = some r := by
  have hmem (r' : Running) : r' ∈ allGenerators.filterMap (fun g => s.generators[g].record) ↔
      ∃ g' : GenIx, s.generators[g'] = .running r' := by
    simp only [List.mem_filterMap, allGenerators, List.mem_finRange, true_and]
    refine exists_congr fun g' => ?_
    cases s.generators[g'] <;> simp [Generator.record]
  unfold State.generatorOn
  cases hfind : (allGenerators.filterMap fun g => s.generators[g].record).find? fun r => r.line = l with
  | none => exact absurd hl (by simpa using List.find?_eq_none.1 hfind r ((hmem r).2 ⟨g, hg⟩))
  | some r' =>
    obtain ⟨g', hg'⟩ := (hmem r').1 (List.mem_of_find?_eq_some hfind)
    obtain rfl := hunique g' r' hg' (by simpa using List.find?_some hfind)
    exact congrArg some (Generator.running.inj (hg'.symm.trans hg))

theorem pulseLevel_eq (polarity : Level) (r : Running) :
    pulseLevel polarity r =
      match polarity, decide (r.count < r.high) with
      | .low, true => .high
      | .low, false => .low
      | .high, true => .low
      | .high, false => .high := by
  unfold pulseLevel Running.active
  cases polarity <;> cases decide (r.count < r.high) <;> rfl

theorem State.pad_of_active {s : State} (h : s.phase.active = true) (l : Line) :
    s.pad l = ⟨s.lineDriver l, s.effective[l].effectivePull, s.effective[l].mode ≠ .analog, s.effective[l].mode = .analog⟩ := by
  unfold State.pad
  rw [if_pos h]

theorem State.pad_of_inactive {s : State} (h : s.phase.active = false) (l : Line) : s.pad l = ⟨.off, .none, true, false⟩ := by
  unfold State.pad
  rw [if_neg (by simp [h])]

/-- Settles O41: Table 1-4 mode by mode. -/
theorem padsFollowTheirModes : Obligations.PadsFollowTheirModes := by
  unfold Obligations.PadsFollowTheirModes
  intro s l
  refine ⟨?_, fun hm => ?_, fun hm => ?_, fun g r hm hg hl hunique => ?_, fun hactive => ?_, fun hreset => ?_⟩
  · unfold State.lineDriver
    rintro (hm | hm) <;> simp only [hm]
  · unfold State.lineDriver
    simp only [hm]
  · unfold State.lineDriver
    simp only [hm]
    cases s.effective[l].level <;> rfl
  · unfold State.lineDriver
    simp only [hm, State.generatorOn_of_unique hg hl hunique]
    exact congrArg Driver.drives (pulseLevel_eq _ r)
  · rw [s.pad_of_active hactive l]
    refine ⟨rfl, ?_, decide_eq_true_iff, decide_eq_true_iff⟩
    unfold LineConfig.effectivePull
    cases s.effective[l].mode <;> rfl
  · rw [State.pad_of_inactive hreset l]
    exact ⟨rfl, rfl, rfl⟩

/-! ## Resets -/

theorem tabulate_const {α : Type} (n : Nat) (x : α) : (tabulate fun _ : Fin n => x) = Vector.replicate n x := by
  refine Vector.ext fun k hk => ?_
  rw [Vector.getElem_replicate]
  exact tabulate_getElem (fun _ => x) ⟨k, hk⟩

theorem State.assertReset_of_active {s : State} (h : s.phase.active = true) (cause : ResetCause) :
    s.assertReset cause = s.cleared .inReset cause := by
  unfold State.assertReset
  cases hp : s.phase with
  | initializing | running => rfl
  | noSupply | inReset => rw [hp] at h; nomatch h

theorem State.assertReset_of_inactive {s : State} (h : s.phase.active = false) (cause : ResetCause) :
    s.assertReset cause = s := by
  unfold State.assertReset
  cases hp : s.phase with
  | initializing | running => rw [hp] at h; nomatch h
  | noSupply | inReset => rfl

/-- Outside operation both attention lines are released (R156). -/
theorem State.settleAttention_of_not_running {s : State} (h : s.phase ≠ .running) :
    s.settleAttention = { s with attnI := false, attnS := false } := by
  unfold State.settleAttention
  rw [decide_eq_false h]
  rfl

theorem State.releaseReset_of_inReset {s : State} (h : s.phase = .inReset) (st : Straps) :
    s.releaseReset st = { s with
      phase := .initializing 0, straps := st, supervisor := supvClient st.supv, attnI := false, attnS := false } := by
  unfold State.releaseReset
  simp only [h]
  exact State.settleAttention_of_not_running nofun

theorem State.releaseReset_of_not_inReset {s : State} (h : s.phase ≠ .inReset) (st : Straps) : s.releaseReset st = s := by
  unfold State.releaseReset
  split
  · contradiction
  · rfl

theorem State.endInitialization_of_initializing {s : State} {n : Nat} (h : s.phase = .initializing n) :
    s.endInitialization = ({ s with phase := .running } : State).settleAttention := by
  unfold State.endInitialization
  simp only [h]

theorem exec_initializationEnd (s : State) :
    exec .initializationEnd s = .next (if s.phase.due then s.endInitialization else s) := rfl

/-- Settles O46: every row of the resets by the phase that it finds. -/
theorem resetsClearAndRelease : Obligations.ResetsClearAndRelease := by
  unfold Obligations.ResetsClearAndRelease
  refine ⟨?_, fun s as1 as0 supv hp => ?_, fun s as1 as0 supv hp => ?_, fun s n hp hn => ?_, fun s hbefore => ?_⟩
  · rintro s u rfl
    simp only [tabulate_const]
    refine ⟨rfl, rfl, fun hactive => ⟨?_, ?_⟩, fun hreset => ⟨?_, ?_⟩⟩
    · exact congrArg _ (State.assertReset_of_active hactive .resetPin)
    · exact congrArg _ (State.assertReset_of_active hactive .supplyLow)
    · exact congrArg _ (State.assertReset_of_inactive hreset .resetPin)
    · exact congrArg _ (State.assertReset_of_inactive hreset .supplyLow)
  · exact congrArg _ (State.releaseReset_of_inReset hp ⟨as1, as0, supv⟩)
  · exact congrArg _ (State.releaseReset_of_not_inReset hp ⟨as1, as0, supv⟩)
  · rw [exec_initializationEnd, if_pos ((Phase.due_iff _).2 ⟨n, hp, hn⟩), State.endInitialization_of_initializing hp]
    exact ⟨_, rfl, rfl, attentionLaw_settled _⟩
  · rw [exec_initializationEnd, if_neg]
    intro hdue
    obtain ⟨n, hp, hn⟩ := (Phase.due_iff _).1 hdue
    exact absurd hn (Nat.not_le_of_lt (hbefore n hp))

end Sys2Proof.Machine
end

section
/-!
PROOF. The converter's own events: a sample is held and converted (O44), and the last sample of a request completes it (O45).
-/

namespace Sys2Proof.Machine

/-! ## When the rows come -/

theorem exec_acquisitionEnd (s : State) (v : Int) :
    exec (.acquisitionEnd v) s = .next (if s.converterDue then s.endAcquisition v else s) := rfl

theorem exec_sampleConversionEnd (s : State) (vdd : Int) :
    exec (.sampleConversionEnd vdd) s = .next (if s.converterDue then s.endConversion vdd else s) := rfl

theorem exec_conversionComplete (s : State) (vdd : Int) :
    exec (.conversionComplete vdd) s =
      .next (if s.converterDue && s.lastSampleConverting then s.endConversion vdd else s) := rfl

theorem InFlight.phasePeriods_acquiring {f : InFlight} (h : f.phase = .acquiring) :
    f.phasePeriods = f.acquisition.periods := by
  unfold InFlight.phasePeriods
  rw [h]

theorem InFlight.phasePeriods_converting {f : InFlight} {held : Int} (h : f.phase = .converting held) :
    f.phasePeriods = 96 := by
  rw [f.phasePeriods_eq, h]

section
variable {s : State} {f : InFlight} (hf : s.inFlight = some f)
include hf

theorem State.converterDue_eq : s.converterDue = decide (f.phasePeriods ≤ f.elapsed) := by
  unfold State.converterDue
  rw [hf]

theorem State.lastSampleConverting_iff :
    s.lastSampleConverting = true ↔ f.phase ≠ .acquiring ∧ f.request.samples ≤ f.done + 1 := by
  unfold State.lastSampleConverting
  simp [hf]

theorem State.endAcquisition_acquiring (hp : f.phase = .acquiring) (v : Int) :
    s.endAcquisition v =
      { s with inFlight := some { f with phase := .converting (s.channelVoltage f.request.line v), elapsed := 0 } } := by
  unfold State.endAcquisition
  simp only [hf, hp]

theorem State.endAcquisition_converting {held : Int} (hp : f.phase = .converting held) (v : Int) :
    s.endAcquisition v = s := by
  unfold State.endAcquisition
  simp only [hf, hp]

theorem State.endConversion_acquiring (hp : f.phase = .acquiring) (vdd : Int) : s.endConversion vdd = s := by
  unfold State.endConversion
  simp only [hf, hp]

theorem State.endConversion_converting {held : Int} (hp : f.phase = .converting held) (vdd : Int) :
    s.endConversion vdd =
      if f.done + 1 < f.request.samples then { s with inFlight := some (f.afterSample held vdd) }
      else (s.completeRequest (f.afterSample held vdd)).settleAttention := by
  unfold State.endConversion
  simp only [hf, hp]
  rfl

end

theorem State.not_converterDue_of_idle {s : State} (h : s.inFlight = none) : s.converterDue = false := by
  unfold State.converterDue
  rw [h]

/-! ## What a sample adds -/

theorem AcqTime.periods_eq (a : AcqTime) :
    a.periods = match a with | .us4 => 32 | .us8 => 64 | .us16 => 128 | .us32 => 256 := by
  cases a <;> rfl

theorem referenceVoltage_eq (r : Reference) (vdd : Int) :
    referenceVoltage r vdd = if r = .internal then 2048000 else vdd := by
  cases r <;> rfl

/-- The code is the ratio times 1024, rounded down, from 0 to 1023 (R130). -/
theorem codeOf_eq {held ref : Int} {code : Nat} (hpos : 0 < ref) (hnegative : held < 0 → code = 0)
    (hlimit : 0 ≤ held → 1023 * ref ≤ held * 1024 → code = 1023)
    (hratio : 0 ≤ held → held * 1024 < 1023 * ref → code * ref ≤ held * 1024 ∧ held * 1024 < (code + 1) * ref) :
    codeOf held ref = code := by
  unfold codeOf
  rw [if_pos hpos]
  rcases lt_or_ge held 0 with hneg | hheld
  · have hquotient : held * 1024 / ref < 0 := Int.ediv_neg_of_neg_of_pos (by omega) hpos
    rw [hnegative hneg, Int.toNat_of_nonpos hquotient.le]
    rfl
  · rcases le_or_gt (1023 * ref) (held * 1024) with hhigh | hlow
    · have hquotient : 1023 ≤ held * 1024 / ref := (Int.le_ediv_iff_mul_le hpos).2 hhigh
      rw [hlimit hheld hhigh]
      omega
    · obtain ⟨hle, hlt⟩ := hratio hheld hlow
      have hquotient : held * 1024 / ref = code :=
        le_antisymm (Int.lt_add_one_iff.1 ((Int.ediv_lt_iff_lt_mul hpos).2 hlt)) ((Int.le_ediv_iff_mul_le hpos).2 hle)
      have hcode : (code : Int) < 1023 := hquotient ▸ (Int.ediv_lt_iff_lt_mul hpos).2 hlow
      rw [hquotient]
      omega

theorem State.channelVoltage_of_active {s : State} (h : s.phase.active = true) (l : Line) (v : Int) :
    s.channelVoltage l v = if s.effective[l].mode = .analog then v else 0 := by
  unfold State.channelVoltage
  rw [State.pad_of_active h]
  simp only [decide_eq_true_eq]

/-- Settles O44: each row by the phase of the request in flight, and the code by `codeOf_eq`. -/
theorem samplesAreHeldAndConverted : Obligations.SamplesAreHeldAndConverted := by
  unfold Obligations.SamplesAreHeldAndConverted
  refine ⟨fun s f v hf hp hactive htime => ?_, fun s v h => ?_,
    fun s f held vdd ref code hf hp htime hmore href hpos hneg hlimit hratio => ?_, fun s vdd h => ?_⟩
  · have hdue : s.converterDue = true := by
      rw [State.converterDue_eq hf, f.phasePeriods_acquiring hp, f.acquisition.periods_eq]
      exact decide_eq_true htime
    rw [exec_acquisitionEnd, if_pos hdue, State.endAcquisition_acquiring hf hp, State.channelVoltage_of_active hactive]
  · rw [exec_acquisitionEnd]
    refine congrArg _ (ite_eq_right_iff.2 fun hdue => ?_)
    obtain ⟨f, hf, htime⟩ := s.converterDue_iff.1 hdue
    cases hp : f.phase with
    | converting held => exact State.endAcquisition_converting hf hp v
    | acquiring =>
      rw [f.phasePeriods_acquiring hp, f.acquisition.periods_eq] at htime
      obtain hnone | ⟨f', held, hf', hp'⟩ | ⟨f', hf', hbefore⟩ := h
      · nomatch hf.symm.trans hnone
      · obtain rfl := Option.some.inj (hf.symm.trans hf')
        nomatch hp.symm.trans hp'
      · obtain rfl := Option.some.inj (hf.symm.trans hf')
        exact absurd htime (Nat.not_le_of_lt hbefore)
  · have hdue : s.converterDue = true := by
      rw [State.converterDue_eq hf, f.phasePeriods_converting hp]
      exact decide_eq_true htime
    constructor
    · rw [exec_sampleConversionEnd, if_pos hdue, State.endConversion_converting hf hp, if_pos hmore]
      unfold InFlight.afterSample
      rw [referenceVoltage_eq, ← href, codeOf_eq hpos hneg hlimit hratio]
    · rw [exec_conversionComplete, if_neg]
      simp only [Bool.and_eq_true, State.lastSampleConverting_iff hf]
      omega
  · have hsame : s.converterDue = true → s.endConversion vdd = s := by
      intro hdue
      obtain ⟨f, hf, htime⟩ := s.converterDue_iff.1 hdue
      cases hp : f.phase with
      | acquiring => exact State.endConversion_acquiring hf hp vdd
      | converting held =>
        rw [f.phasePeriods_converting hp] at htime
        obtain hnone | ⟨f', hf', hp' | hbefore⟩ := h
        · nomatch hf.symm.trans hnone
        · obtain rfl := Option.some.inj (hf.symm.trans hf')
          nomatch hp.symm.trans hp'
        · obtain rfl := Option.some.inj (hf.symm.trans hf')
          exact absurd htime (Nat.not_le_of_lt hbefore)
    constructor
    · rw [exec_sampleConversionEnd]
      exact congrArg _ (ite_eq_right_iff.2 hsame)
    · rw [exec_conversionComplete]
      exact congrArg _ (ite_eq_right_iff.2 fun h => hsame (Bool.and_eq_true_iff.1 h).1)

/-! ## Completion -/

/-- What the delivery of a result writes: the result slot with its OVERRUN mark, and CONVERTED (R140). -/
theorem State.deliver_held {s : State} {i : Slot} {cl : Claim} {h : Held} (hbody : (s.entry i).body = .held cl h) (l : Line)
    (value : Option Nat) (st : ResultStatus) :
    s.deliver i l value st = { s with
      entries := s.entries.set i ⟨(s.entry i).generation, .held cl { h with
        conv := .none, result := some ⟨l, value, st, (s.noticesOf i).converted⟩ }⟩
      notices := s.notices.set i { s.noticesOf i with converted := true } } := by
  unfold State.deliver
  rw [hbody]
  rfl

theorem startNext_analog {s : State} {r : Request} (rest : List Request) {cl : Claim} {h : Held}
    (hbody : (s.entry r.slot).body = .held cl h) (hmode : s.effective[r.line].mode = .analog) :
    startNext (r :: rest) s = { s with
      entries := s.entries.set r.slot ⟨(s.entry r.slot).generation, .held cl { h with conv := .inFlight }⟩
      convQueue := rest
      inFlight := some ⟨r, 0, 0, s.reference, s.acquisition, false, false, .acquiring, 0⟩ } := by
  unfold startNext
  rw [if_pos hmode, hbody]
  rfl

theorem startNext_modeLost {s : State} {r : Request} (rest : List Request) (hmode : s.effective[r.line].mode ≠ .analog) :
    startNext (r :: rest) s = startNext rest (s.deliver r.slot r.line none .modeLost) := by
  conv_lhs => unfold startNext
  rw [if_neg hmode]

theorem State.completeRequest_discard (s : State) {r : InFlight} (h : r.discard = true) :
    s.completeRequest r = startNext s.convQueue s := by
  unfold State.completeRequest
  rw [if_pos h]

theorem State.completeRequest_held {s : State} {r : InFlight} (h : r.discard = false) {cl : Claim} {hd : Held}
    (hbody : (s.entry r.request.slot).body = .held cl hd) :
    s.completeRequest r = startNext s.convQueue { s with
      entries := s.entries.set r.request.slot ⟨(s.entry r.request.slot).generation, .held cl { hd with
        conv := .none
        result := some ⟨r.request.line, some (r.sum / r.request.samples), if r.disturbed then .disturbed else .ok,
          (s.noticesOf r.request.slot).converted⟩ }⟩
      notices := s.notices.set r.request.slot { s.noticesOf r.request.slot with converted := true } } := by
  unfold State.completeRequest
  rw [if_neg (by simp [h]), State.deliver_held hbody]

/-- Either row completes the request, at the end of its last sample (log 15). -/
theorem exec_completes {s : State} {f : InFlight} {held vdd : Int} (hf : s.inFlight = some f)
    (hp : f.phase = .converting held) (htime : 96 ≤ f.elapsed) (hlast : f.request.samples ≤ f.done + 1) :
    ∀ row ∈ [Instr.sampleConversionEnd vdd, .conversionComplete vdd],
      exec row s = .next (s.completeRequest (f.afterSample held vdd)).settleAttention := by
  have hdue : s.converterDue = true := by
    rw [State.converterDue_eq hf, f.phasePeriods_converting hp]
    exact decide_eq_true htime
  have hends : s.endConversion vdd = (s.completeRequest (f.afterSample held vdd)).settleAttention := by
    rw [State.endConversion_converting hf hp, if_neg (Nat.not_lt_of_le hlast)]
  have hconverting : s.lastSampleConverting = true := (State.lastSampleConverting_iff hf).2 ⟨by simp [hp], hlast⟩
  rintro row (_ | ⟨_, _ | ⟨_, ⟨⟩⟩⟩)
  · rw [exec_sampleConversionEnd, if_pos hdue, hends]
  · rw [exec_conversionComplete, if_pos (Bool.and_eq_true_iff.2 ⟨hdue, hconverting⟩), hends]

/-- Settles O45: by `exec_completes`, what a delivery writes, and the start check of each queued request. -/
theorem completionDeliversResult : Obligations.CompletionDeliversResult := by
  unfold Obligations.CompletionDeliversResult
  refine ⟨?_, fun s => rfl, fun s r rest cl h hbody => ⟨startNext_analog rest hbody, fun hmode => ?_⟩⟩
  · rintro s f held vdd row sum hrow hf hp htime hlast rfl
    rw [exec_completes hf hp htime hlast row hrow]
    exact ⟨fun hdiscard => congrArg (fun t : State => Host.Outcome.next t.settleAttention) (s.completeRequest_discard hdiscard),
      fun cl h hkeep hbody => congrArg (fun t : State => Host.Outcome.next t.settleAttention)
        (State.completeRequest_held (r := f.afterSample held vdd) hkeep hbody)⟩
  · rw [startNext_modeLost rest hmode, State.deliver_held hbody]

end Sys2Proof.Machine
end

section
/-!
PROOF. A pulse group counts and wraps (O42). The record that gives a group's count agrees with every generator of the group, so
both rows are decided by any one of them.
-/

namespace Sys2Proof.Machine

/-! ## When the rows come -/

theorem exec_pulseClockCount (s : State) (i : Slot) :
    exec (.pulseClockCount i) s = .next (if s.groupDue i then s.countGroup i else s) := rfl

theorem exec_generatorWrap (s : State) (i : Slot) :
    exec (.generatorWrap i) s = .next (if s.groupDue i && s.atWrap i then s.wrapGroup i else s) := rfl

theorem exec_groupRows_of_not_due {s : State} {i : Slot} (h : s.groupDue i = false) :
    exec (.generatorWrap i) s = .next s ∧ exec (.pulseClockCount i) s = .next s := by
  rw [exec_generatorWrap, exec_pulseClockCount, h]
  exact ⟨rfl, rfl⟩

theorem State.groupDue_of_absent {s : State} {i : Slot}
    (h : ∀ (g : GenIx) (r : Running), s.generators[g] = .running r → r.slot ≠ i) : s.groupDue i = false := by
  unfold State.groupDue
  cases hrecord : s.groupRecord i with
  | none => rfl
  | some r =>
    obtain ⟨g, hg, hslot⟩ := State.groupRecord_some hrecord
    exact absurd hslot (h g r hg)

section
variable {s : State} {i : Slot} {x : GenIx} {run : Running} (hx : s.generators[x] = .running run) (hslot : run.slot = i)
  (hagree : ∀ (y : GenIx) (other : Running), s.generators[y] = .running other → other.slot = i →
    other.count = run.count ∧ other.period = run.period ∧ other.counting = run.counting)
include hx hslot hagree

theorem State.groupRecord_agrees :
    ∃ r, s.groupRecord i = some r ∧ r.count = run.count ∧ r.period = run.period ∧ r.counting = run.counting := by
  cases hrecord : s.groupRecord i with
  | none => exact absurd hslot (State.groupRecord_none hrecord x hx)
  | some r =>
    obtain ⟨g, hg, hi⟩ := State.groupRecord_some hrecord
    exact ⟨r, rfl, hagree g r hg hi⟩

theorem State.groupDue_eq : s.groupDue i = run.counting := by
  obtain ⟨r, hrecord, -, -, hcounting⟩ := State.groupRecord_agrees hx hslot hagree
  unfold State.groupDue
  rw [hrecord]
  exact hcounting

theorem State.atWrap_eq : s.atWrap i = decide (run.period ≤ run.count + 1) := by
  obtain ⟨r, hrecord, hcount, hperiod, -⟩ := State.groupRecord_agrees hx hslot hagree
  unfold State.atWrap
  rw [hrecord]
  simp only [hcount, hperiod]

theorem exec_groupRows_counts (hdue : run.counting = true) (hcount : run.count + 1 < run.period) :
    exec (.generatorWrap i) s = .next s ∧ exec (.pulseClockCount i) s = .next (s.mapGroup i Running.advanced) := by
  have hwrap : s.atWrap i = false := by
    rw [State.atWrap_eq hx hslot hagree]
    exact decide_eq_false (Nat.not_le_of_lt hcount)
  rw [exec_generatorWrap, exec_pulseClockCount, State.groupDue_eq hx hslot hagree, hdue, hwrap]
  refine ⟨rfl, ?_⟩
  unfold State.countGroup
  rw [hwrap]
  rfl

theorem exec_groupRows_wrap (hdue : run.counting = true) (hcount : run.period ≤ run.count + 1) :
    ∀ row ∈ [Instr.generatorWrap i, .pulseClockCount i], exec row s = .next (s.wrapGroup i) := by
  have hwrap : s.atWrap i = true := by
    rw [State.atWrap_eq hx hslot hagree]
    exact decide_eq_true hcount
  rintro row (_ | ⟨_, _ | ⟨_, ⟨⟩⟩⟩)
  · rw [exec_generatorWrap, State.groupDue_eq hx hslot hagree, hdue, hwrap]
    rfl
  · rw [exec_pulseClockCount, State.groupDue_eq hx hslot hagree, hdue]
    unfold State.countGroup
    rw [hwrap]
    rfl

end

/-! ## What they write -/

/-- A change of a group, written out generator by generator. -/
theorem State.mapGroup_eq {s : State} {i : Slot} {f : Running → Running} {next : GenIx → Generator}
    (hfree : ∀ g : GenIx, s.generators[g] = .free → next g = .free)
    (hrunning : ∀ (g : GenIx) (r : Running), s.generators[g] = .running r →
      next g = if r.slot = i then .running (f r) else .running r) :
    s.mapGroup i f = { s with generators := tabulate next } := by
  unfold State.mapGroup
  refine congrArg (fun gs => ({ s with generators := gs } : State)) (congrArg tabulate (funext fun g => ?_))
  cases hg : s.generators[g] with
  | free => exact (hfree g hg).symm
  | running r =>
    rw [hrunning g r hg]
    by_cases hi : r.slot = i <;> simp [Generator.recordFor, hi]

theorem EntryBody.pendingUpdate_held {b : EntryBody} {cl : Claim} {h : Held} {g : PulseGroup} {u : PulseUpdate}
    (hb : b = .held cl h) (hg : h.pulse = some g) (hu : g.update = some u) : b.pendingUpdate = some (cl, h, g, u) := by
  unfold EntryBody.pendingUpdate
  rw [hb]
  simp only [hg, hu]
  rfl

/-- Settles O42: the rows by any one generator of the group, and a wrap by the pending update of the entry. -/
theorem pulseGroupCountsAndWraps : Obligations.PulseGroupCountsAndWraps := by
  unfold Obligations.PulseGroupCountsAndWraps
  refine ⟨fun s i habsent => exec_groupRows_of_not_due (State.groupDue_of_absent habsent),
    fun s i x run hx hslot hagree => ⟨fun hdue => ?_, fun hdue hcount => ?_, fun hdue hcount row hrow => ?_⟩⟩
  · exact exec_groupRows_of_not_due ((State.groupDue_eq hx hslot hagree).trans hdue)
  · obtain ⟨hwrap, hadvance⟩ := exec_groupRows_counts hx hslot hagree hdue hcount
    refine ⟨hwrap, hadvance.trans (congrArg _ (State.mapGroup_eq (fun g hg => by simp only [hg]) fun g r hg => ?_))⟩
    simp only [hg]
    split
    · next hi => rw [Running.advanced, (hagree g r hg hi).1]
    · rfl
  · rw [exec_groupRows_wrap hx hslot hagree hdue hcount row hrow]
    unfold State.wrapGroup
    refine ⟨fun cl h g u hbody hg hu => ?_, fun hnone => ?_⟩
    · rw [EntryBody.pendingUpdate_held hbody hg hu]
      dsimp only
      unfold State.applyUpdate
      rw [State.mapGroup_eq (fun g hg => ?_) fun g r hg => ?_]
      · rfl
      · simp only [hg]
      · simp only [hg]
        rfl
    · have hpending : (s.entry i).body.pendingUpdate = none := by
        refine Option.eq_none_iff_forall_ne_some.2 fun ⟨cl, h, g, u⟩ hpending => ?_
        obtain ⟨hbody, hg, hu⟩ := EntryBody.pendingUpdate_some hpending
        exact hnone cl h g u hbody hg hu
      rw [hpending]
      exact congrArg _ (State.mapGroup_eq (fun g hg => by simp only [hg]) fun g r hg => by simp only [hg]; rfl)

end Sys2Proof.Machine
end

section
/-!
PROOF. A sample of all lines (O40): what it reads, the filter step of every watched line, and the EDGE that the flips of one
sample make together.
-/

namespace Sys2Proof.Machine

/-! ## What a sample reads -/

theorem exec_lineSample (s : State) (driven level : LineSet) :
    exec (.lineSample driven level) s =
      .next (if s.phase.active && s.sampleDue then (s.takeSample (tabulate (s.sampledLevel driven level))).settleAttention
        else s) := rfl

theorem State.sampleDue_iff (s : State) : s.sampleDue = true ↔ 8000 ≤ s.samplePosition := decide_eq_true_iff

theorem State.sampledLevel_of_active {s : State} (h : s.phase.active = true) (driven level : LineSet) (l : Line) :
    s.sampledLevel driven level l =
      if s.effective[l].mode = .analog then .low
      else if inSet l driven = true then levelOfBool (inSet l level)
      else
        match s.lineDriver l, s.effective[l].effectivePull with
        | .drives v, _ => v
        | .off, .up => .high
        | .off, .down => .low
        | .off, .none => levelOfBool (inSet l level) := by
  unfold State.sampledLevel wireLevel
  rw [State.pad_of_active h]
  by_cases hmode : s.effective[l].mode = .analog
  · rw [if_pos hmode]
    exact if_neg (mt of_decide_eq_true (not_not_intro hmode))
  · rw [if_neg hmode]
    refine (if_pos (decide_eq_true hmode)).trans (ite_congr rfl (fun _ => rfl) fun _ => ?_)
    cases s.lineDriver l <;> cases s.effective[l].effectivePull <;> rfl

/-! ## One filter step -/

theorem WatchedLine.step_eq (filter : Nat) (x : WatchedLine) (sample : Level) :
    (x.step filter sample).1 =
      if sample = x.stable then { x with run := 0 }
      else if x.run + 1 = filter then { x with stable := sample, run := 0 }
      else { x with run := x.run + 1 } := by
  unfold WatchedLine.step
  split
  · rfl
  · split <;> rfl

theorem WatchedLine.step_flips (filter : Nat) (x : WatchedLine) (sample : Level) :
    (x.step filter sample).2 = (decide (sample ≠ x.stable) && decide (x.run + 1 = filter)) := by
  unfold WatchedLine.step
  split
  · next h => simp [h]
  · next h => split <;> simp_all

theorem Sense.matches_eq (sense : Sense) (new : Level) :
    sense.matches new = (decide (sense = .both) || (decide (sense = .rising) && decide (new = .high))
      || (decide (sense = .falling) && decide (new = .low))) := by
  cases sense <;> cases new <;> rfl

theorem Watch.edges_eq (w : Watch) (samples : Vector Level 24) :
    w.edges samples =
      (w.lines.filter fun x => samples[x.line] ≠ x.stable && x.run + 1 = w.filter &&
        (x.sense = .both || (x.sense = .rising && samples[x.line] = .high)
          || (x.sense = .falling && samples[x.line] = .low))).map WatchedLine.line := by
  unfold Watch.edges
  simp only [WatchedLine.step_flips, Sense.matches_eq]

theorem EntryBody.sampled_held {cl : Claim} {h : Held} {w : Watch} (hw : h.watch = some w) (samples : Vector Level 24) :
    (EntryBody.held cl h).sampled samples = .held cl { h with watch := some (w.step samples) } := by
  unfold EntryBody.sampled
  simp only [hw]
  rfl

theorem EntryBody.sampled_unwatched {b : EntryBody} (h : b.watch = none) (samples : Vector Level 24) : b.sampled samples = b := by
  cases b with
  | held cl hd =>
    have hwatch : hd.watch = none := h
    unfold EntryBody.sampled
    simp only [hwatch, Option.map_none]
    rw [← hwatch]
  | _ => rfl

theorem EntryBody.edges_of_watch {b : EntryBody} {w : Watch} (h : b.watch = some w) (samples : Vector Level 24) :
    b.edges samples = w.edges samples := by
  unfold EntryBody.edges
  rw [h]

theorem EntryBody.edges_unwatched {b : EntryBody} (h : b.watch = none) (samples : Vector Level 24) : b.edges samples = [] := by
  unfold EntryBody.edges
  rw [h]

theorem EntryBody.watch_eq_some_iff (b : EntryBody) (w : Watch) :
    b.watch = some w ↔ ∃ cl h, b = .held cl h ∧ h.watch = some w := by
  cases b <;> simp [EntryBody.watch]

/-! ## The EDGE of one sample -/

theorem edgeAfter_count_le (p : Option EdgePayload) (l : Line) : (edgeAfter p l).count ≤ 255 := by
  cases p with
  | none => exact Nat.le_of_ble_eq_true rfl
  | some e => exact Nat.min_le_left _ _

/-- Further flips join a pending EDGE, with a count that stays at 255 (R107). -/
theorem foldl_withEdge_pending (ls : List Line) : ∀ (p : PendingSet) (e : EdgePayload), p.edge = some e → e.count ≤ 255 →
    ls.foldl PendingSet.withEdge p =
      { p with edge := some ⟨e.changed ||| lineSet ls, min 255 (e.count + ls.length)⟩ } := by
  induction ls with
  | nil =>
    intro p e hp hcount
    have hsame : (⟨e.changed ||| lineSet [], min 255 (e.count + 0)⟩ : EdgePayload) = e := by
      rw [Nat.add_zero, Nat.min_eq_right hcount]
      exact congrArg (EdgePayload.mk · e.count) (BitVec.or_zero)
    rw [List.length_nil, hsame, ← hp]
    rfl
  | cons l ls ih =>
    intro p e hp hcount
    have hstep : (p.withEdge l).edge = some ⟨e.changed ||| lineBit l, min 255 (e.count + 1)⟩ := by
      unfold PendingSet.withEdge edgeAfter
      rw [hp]
    have hchanged : e.changed ||| lineBit l ||| lineSet ls = e.changed ||| lineSet (l :: ls) := BitVec.or_assoc ..
    have hlength : min 255 (min 255 (e.count + 1) + ls.length) = min 255 (e.count + (l :: ls).length) := by
      rw [List.length_cons]
      omega
    rw [List.foldl_cons, ih _ _ hstep (Nat.min_le_left _ _)]
    dsimp only
    rw [hchanged, hlength]
    rfl

theorem foldl_withEdge (ls : List Line) (p : PendingSet) :
    ls.foldl PendingSet.withEdge p =
      if ls = [] then p
      else
        match p.edge with
        | none => { p with edge := some ⟨lineSet ls, min 255 ls.length⟩ }
        | some e => { p with edge := some ⟨e.changed ||| lineSet ls, min 255 (e.count + ls.length)⟩ } := by
  cases ls with
  | nil => rfl
  | cons l ls =>
    rw [if_neg (List.cons_ne_nil l ls), List.foldl_cons,
      foldl_withEdge_pending ls _ _ (rfl : (p.withEdge l).edge = some (edgeAfter p.edge l)) (edgeAfter_count_le _ _)]
    cases hp : p.edge with
    | none =>
      have hlength : min 255 (1 + ls.length) = min 255 (l :: ls).length := by rw [List.length_cons, Nat.add_comm]
      rw [← hlength]
      rfl
    | some e =>
      have hchanged : e.changed ||| lineBit l ||| lineSet ls = e.changed ||| lineSet (l :: ls) := BitVec.or_assoc ..
      have hlength : min 255 (min 255 (e.count + 1) + ls.length) = min 255 (e.count + (l :: ls).length) := by
        rw [List.length_cons]
        omega
      dsimp only
      rw [← hchanged, ← hlength]
      rfl

/-- Settles O40: entry by entry, with one filter step per watched line and the EDGE of its flips. -/
theorem sampleReachesEveryWatch : Obligations.SampleReachesEveryWatch := by
  unfold Obligations.SampleReachesEveryWatch
  refine ⟨fun s driven level h => ?_, fun s driven level hactive htime => ?_⟩
  · rw [exec_lineSample, if_neg]
    simp only [Bool.and_eq_true, s.sampleDue_iff]
    rintro ⟨hactive, htime⟩
    exact h.elim (fun hreset => nomatch hactive.symm.trans hreset) (Nat.not_lt_of_le htime)
  · have hdue : (s.phase.active && s.sampleDue) = true := Bool.and_eq_true_iff.2 ⟨hactive, s.sampleDue_iff.2 htime⟩
    rw [exec_lineSample, if_pos hdue]
    refine ⟨_, rfl, fun l => ?_, fun i cl h w hbody hw => ⟨⟨_, ?_, rfl⟩, ?_⟩, fun i hunwatched => ?_, rfl⟩
    · exact (tabulate_getElem _ l).trans (State.sampledLevel_of_active hactive driven level l)
    · rw [State.entry_settleAttention, State.entry_takeSample, hbody, EntryBody.sampled_held hw]
      unfold Watch.step
      simp only [WatchedLine.step_eq]
      rfl
    · rintro flips rfl
      have hwatch : (s.entry i).body.watch = some w := (EntryBody.watch_eq_some_iff _ w).2 ⟨cl, h, hbody, hw⟩
      rw [State.noticesOf_settleAttention, State.noticesOf_takeSample, EntryBody.edges_of_watch hwatch, Watch.edges_eq]
      exact foldl_withEdge _ _
    · have hnone : (s.entry i).body.watch = none := by
        refine Option.eq_none_iff_forall_ne_some.2 fun w hw => ?_
        obtain ⟨cl, h, hbody, hwatch⟩ := (EntryBody.watch_eq_some_iff _ w).1 hw
        exact hunwatched cl h w hbody hwatch
      rw [State.entry_settleAttention, State.noticesOf_settleAttention, State.entry_takeSample, State.noticesOf_takeSample,
        EntryBody.sampled_unwatched hnone, EntryBody.edges_unwatched hnone]
      exact ⟨rfl, rfl⟩

end Sys2Proof.Machine
end

section
/-!
PROOF. Every law holds right after reset (O59): every entry is FREE, every list empty, every record at its reset value.
-/

namespace Sys2Proof.Machine

/-! ## The reset values -/

theorem State.reset_body (i : Slot) : (State.reset.entry i).body = .free := by simp [State.entry, State.reset]

theorem State.reset_client (c : Client) : State.reset.client c = ClientRecord.reset := by simp [State.client, State.reset]

theorem State.reset_noticesOf (i : Slot) : State.reset.noticesOf i = PendingSet.empty := by
  simp [State.noticesOf, State.reset]

theorem State.reset_generator (g : GenIx) : State.reset.generators[g] = .free := by simp [State.reset]

theorem State.reset_eq_cleared : State.reset = State.reset.cleared (.initializing 0) .powerOn := rfl

/-! ## The laws -/

theorem holderLaw_reset : HolderLaw State.reset := by
  intro i j _ l h
  rw [State.reset_body] at h
  nomatch h

theorem waitListLaw_reset : WaitListLaw State.reset := by
  refine ⟨List.nodup_nil, fun i => ?_, .nil⟩
  rw [State.reset_body]
  exact iff_of_false List.not_mem_nil nofun

theorem countdownLaw_reset : CountdownLaw State.reset :=
  ⟨fun i => State.reset_body i ▸ rfl, fun c => State.reset_client c ▸ rfl⟩

theorem clockLaw_reset : ClockLaw State.reset := by
  refine ⟨Nat.zero_le _, Nat.zero_le _, ?_, nofun, fun h => absurd rfl h⟩
  rintro n ⟨⟩
  exact Nat.zero_le _

theorem sessionLaw_reset : SessionLaw State.reset := by
  intro c
  have howned : State.reset.ownedSlots c = [] := by
    refine List.filter_eq_nil_iff.2 fun i _ => ?_
    rw [State.reset_body]
    nofun
  have hslot : State.reset.slot c = ⟨.none, false, false⟩ := by simp [State.slot, State.reset]
  have hgained : State.reset.gained[c] = none := by simp [State.reset]
  have hcursor : State.reset.cursors[c] = 31 := by simp [State.reset]
  refine ⟨by simp [howned], ?_, fun _ => ⟨howned, hgained, hcursor⟩⟩
  unfold State.waitingCommandServed
  rw [hslot]

theorem recordLaw_reset : RecordLaw State.reset := fun i => State.reset_body i ▸ rfl

theorem sourceLaw_reset : SourceLaw State.reset := by
  refine (sourceLaw_iff recordLaw_reset holderLaw_reset).2 ⟨fun i l k h => ?_, fun l _ => by simp [State.reset]⟩
  rw [State.reset_body] at h
  nomatch h

theorem generatorLaw_reset : GeneratorLaw State.reset := by
  refine (generatorLaw_iff _).2 ⟨fun g i a h => ?_, fun g r h => ?_, fun g _ r _ h => ?_⟩
  · rw [State.reset_body] at h
    nomatch h
  · nomatch (State.reset_generator g).symm.trans h
  · nomatch (State.reset_generator g).symm.trans h

theorem converterLaw_reset : ConverterLaw State.reset := by
  refine ⟨fun _ => rfl, Nat.zero_le _, List.nodup_nil, nofun, nofun, fun i => ⟨?_, by rw [State.reset_body]; rfl⟩⟩
  unfold State.conversionFound
  rw [State.reset_body]
  rfl

theorem noticeLaw_reset : NoticeLaw State.reset := by
  intro i
  rw [State.reset_noticesOf]
  exact EntryBody.noticesWell_empty _

theorem settledLaw_reset : SettledLaw State.reset := by
  intro older newer i h
  exact absurd h.symm (List.append_ne_nil_of_right_ne_nil older (List.cons_ne_nil i newer))

theorem portLaw_reset : PortLaw State.reset := (portLaw_iff _).2 (State.reset_eq_cleared ▸ State.cleared_ports ..)

/-- Settles O59: law by law. -/
theorem lawsHoldAtReset : Obligations.LawsHoldAtReset := by
  unfold Obligations.LawsHoldAtReset
  exact ⟨holderLaw_reset, waitListLaw_reset, countdownLaw_reset, clockLaw_reset, sessionLaw_reset, recordLaw_reset,
    sourceLaw_reset, generatorLaw_reset, converterLaw_reset, noticeLaw_reset, settledLaw_reset,
    State.cleared_attentionLaw State.reset (p := .initializing 0) .powerOn nofun, portLaw_reset,
    .of_active rfl⟩

end Sys2Proof.Machine
end

section
/-!
PROOF. The form of an ACQUIRE body (R31, R188), for O16: how it divides into its fields, field by field in both directions, and
which fields the argument checks refuse. `acquireAgreeing` is what the checks still do once the body is divided.
-/

namespace Sys2Proof.Machine

/-! ## Refusals one after another -/

/-- Checks of one status that let nothing through, at the last by those that follow. -/
theorem refusal_of_bind {α β : Type} {st : Status} {x : Check α} {f : α → Check β} (hx : RefusesWith st x)
    (hf : ∀ a, x = .ok a → f a = .error ⟨st, []⟩) : (x >>= f) = .error ⟨st, []⟩ := by
  cases h : x with
  | error a => exact congrArg Except.error (hx a h)
  | ok a => exact hf a h

/-! ## Parts of a body -/

theorem splitBytes_append (xs rest : List Byte) : splitBytes xs.length (xs ++ rest) = .ok (xs, rest) := by
  unfold splitBytes
  rw [if_pos (by simp), List.take_left, List.drop_left]

theorem append_of_splitBytes {n : Nat} {bs xs rest : List Byte} (h : splitBytes n bs = .ok (xs, rest)) :
    xs.length = n ∧ bs = xs ++ rest := by
  refine ⟨splitBytes_ok h, ?_⟩
  unfold splitBytes at h
  split at h
  · obtain ⟨rfl, rfl⟩ := Prod.mk.inj (Except.ok.inj h)
    exact (List.take_append_drop n bs).symm
  · nomatch h

theorem splitBytes_refuses (n : Nat) (bs : List Byte) : RefusesWith .badArgument (splitBytes n bs) := by
  unfold splitBytes
  split
  · exact .ok _
  · exact .refuse

/-- How many configuration bytes a kind has for some lines (R188). -/
def configCount (kind : Kind) (n : Nat) : Nat :=
  match kind with
  | .exclusive => n
  | .shared => 0

theorem acquireConfigs_refuses (kind : Kind) (n : Nat) (bs : List Byte) : RefusesWith .badArgument (acquireConfigs kind n bs) := by
  cases kind with
  | exclusive => exact .bind (splitBytes_refuses _ _) fun _ => .bind (.need _) fun _ => .ok _
  | shared => exact .ok _

section
variable {kind : Kind} {n : Nat} {cs : List Byte} (hlen : cs.length = configCount kind n) (rest : List Byte)
include hlen

theorem acquireConfigs_bytes {cfgs : List LineConfig} (hcfgs : mapAll configOfByte cs = some cfgs) :
    acquireConfigs kind n (cs ++ rest) = .ok (cfgs, rest) := by
  cases kind with
  | exclusive =>
    obtain rfl : cs.length = n := hlen
    exact (check_bind_of_ok (splitBytes_append cs rest) _).trans (check_bind_of_ok (need_ok hcfgs _) _)
  | shared =>
    obtain rfl : cs = [] := List.eq_nil_of_length_eq_zero hlen
    obtain rfl : [] = cfgs := Option.some.inj hcfgs
    rfl

theorem acquireConfigs_refused (hcfgs : mapAll configOfByte cs = none) :
    acquireConfigs kind n (cs ++ rest) = .error ⟨.badArgument, []⟩ := by
  cases kind with
  | exclusive =>
    obtain rfl : cs.length = n := hlen
    exact (check_bind_of_ok (splitBytes_append cs rest) _).trans (check_bind_of_error (need_error hcfgs _) _)
  | shared =>
    obtain rfl : cs = [] := List.eq_nil_of_length_eq_zero hlen
    nomatch hcfgs

end

theorem bytes_of_acquireConfigs {kind : Kind} {n : Nat} {bs rest : List Byte} {cfgs : List LineConfig}
    (h : acquireConfigs kind n bs = .ok (cfgs, rest)) :
    ∃ cs, cs.length = configCount kind n ∧ mapAll configOfByte cs = some cfgs ∧ bs = cs ++ rest := by
  cases kind with
  | exclusive =>
    obtain ⟨⟨cs, rest'⟩, hsplit, h⟩ := (check_bind_ok_iff _ _ _).1 h
    obtain ⟨cfgs', hcfgs, h⟩ := (check_bind_ok_iff _ _ _).1 h
    obtain ⟨rfl, rfl⟩ := Prod.mk.inj (Except.ok.inj h)
    obtain ⟨hlen, hbytes⟩ := append_of_splitBytes hsplit
    exact ⟨cs, hlen, (need_eq_ok_iff _ _ _).1 hcfgs, hbytes⟩
  | shared =>
    obtain ⟨rfl, rfl⟩ := Prod.mk.inj (Except.ok.inj h)
    exact ⟨[], rfl, rfl, rfl⟩

/-- As many configurations are PULSE as configuration bytes carry the mode (R188). -/
theorem length_filter_pulse {cs : List Byte} {cfgs : List LineConfig} (h : mapAll configOfByte cs = some cfgs) :
    (cfgs.filter fun k => k.mode = .pulse).length = (cs.filter fun b => b.toNat / 32 = 3).length := by
  have hmode {b : Byte} {k : LineConfig} (hk : configOfByte b = some k) : k.mode = .pulse ↔ b.toNat / 32 = 3 := by
    rw [← mode_code_of_configOfByte hk]
    cases k.mode <;> simp [Mode.code]
  have hmap := (mapAll_eq_some_iff _ _ _).1 h
  clear h
  induction cs generalizing cfgs with
  | nil =>
    obtain rfl := List.map_eq_nil_iff.1 hmap
    rfl
  | cons b cs ih =>
    obtain ⟨k, cfgs, rfl, hk, hrest⟩ := List.map_eq_cons_iff.1 hmap
    have hiff := hmode hk.symm
    rw [List.filter_cons, List.filter_cons]
    by_cases hp : k.mode = .pulse
    · rw [if_pos (decide_eq_true hp), if_pos (decide_eq_true (hiff.1 hp)), List.length_cons, List.length_cons, ih hrest]
    · rw [if_neg (by simpa using hp), if_neg (by simpa using mt hiff.2 hp), ih hrest]

/-! ## The pulse group part -/

/-- The bytes of the pulse group that an ACQUIRE carries. -/
def pulsePartBytes (p : Option PulseSetting) : List Byte :=
  match p with
  | none => []
  | some p => byteOf p.divider :: bytes16 p.period ++ p.highs.flatMap bytes16

/-- The setting fits into its fields, with one high count for each of `k` PULSE lines (R188). -/
abbrev PulseSetting.Fits (k : Nat) (p : PulseSetting) : Prop :=
  p.divider < 256 ∧ p.period < 65536 ∧ p.highs.length = k ∧ ∀ n ∈ p.highs, n < 65536

/-- A setting that R31 refuses. -/
abbrev PulseSetting.Refused (p : PulseSetting) : Prop :=
  p.divider ∉ [1, 2, 4, 8, 16, 32, 64, 128] ∨ p.period < 2 ∨ ∃ n ∈ p.highs, p.period < n

/-- A pulse group part that R31 refuses, with `k` PULSE lines. -/
abbrev PulseRefused (k : Nat) (p : Option PulseSetting) : Prop :=
  4 < k ∨ (1 ≤ k ∧ p = none) ∨ (k = 0 ∧ p ≠ none) ∨ ∃ q ∈ p, q.Refused

theorem pulseSettingOf_refuses (k : Nat) (bs : List Byte) : RefusesWith .badArgument (pulseSettingOf k bs) := by
  unfold pulseSettingOf
  split
  · exact .bind (.need _) fun _ => .bind (.ensure _) fun _ => .bind (.ensure _) fun _ => .bind (.ensure _) fun _ =>
      .bind (.ensure _) fun _ => .ok _
  · exact .refuse

theorem pulsePartOf_refuses (bit : Bool) (k : Nat) (bs : List Byte) : RefusesWith .badArgument (pulsePartOf bit k bs) := by
  refine .bind (.ensure _) fun _ => ?_
  split
  · exact .bind (.ensure _) fun _ => .bind (pulseSettingOf_refuses _ _) fun _ => .ok _
  · exact .bind (.ensure _) fun _ => .bind (.ensure _) fun _ => .ok _

/-- What is asked of a setting, once its bytes are divided (R31). -/
def settingChecked (k : Nat) (p : PulseSetting) : Check PulseSetting := do
  ensure (decide (p.highs.length = k)) .badArgument
  ensure (isDivider p.divider) .badArgument
  ensure (decide (2 ≤ p.period)) .badArgument
  ensure (p.highs.all fun h => decide (h ≤ p.period)) .badArgument
  pure p

theorem pulseSettingOf_bytes {k : Nat} {p : PulseSetting} (hfits : p.Fits k) :
    pulseSettingOf k (pulsePartBytes (some p)) = settingChecked k p := by
  obtain ⟨divider, period, highs⟩ := p
  obtain ⟨hdivider, hperiod, -, hhighs⟩ := hfits
  have hchecked : pulseSettingOf k (pulsePartBytes (some ⟨divider, period, highs⟩)) = settingChecked k
      ⟨(byteOf divider).toNat, number16 (BitVec.ofNat 8 (period / 256)) (BitVec.ofNat 8 period), highs⟩ :=
    check_bind_of_ok (need_ok (numbersOf_bytes hhighs) _) _
  rw [hchecked, toNat_byteOf hdivider, number16_bytes hperiod]

theorem settingChecked_of_taken {k : Nat} {p : PulseSetting} (hlen : p.highs.length = k) (h : ¬p.Refused) :
    settingChecked k p = .ok p := by
  obtain ⟨hdivider, hperiod, hhighs⟩ : p.divider ∈ [1, 2, 4, 8, 16, 32, 64, 128] ∧ 2 ≤ p.period ∧
      ∀ n ∈ p.highs, n ≤ p.period := by
    simpa only [PulseSetting.Refused, not_or, not_not, not_lt, not_exists, not_and] using h
  exact (check_bind_of_ok (ensure_of_true (decide_eq_true hlen) _) _).trans
    ((check_bind_of_ok (ensure_of_true ((isDivider_iff _).2 hdivider) _) _).trans
      ((check_bind_of_ok (ensure_of_true (decide_eq_true hperiod) _) _).trans
        (check_bind_of_ok (ensure_of_true (List.all_eq_true.2 fun n hn => decide_eq_true (hhighs n hn)) _) _)))

theorem settingChecked_of_refused {k : Nat} {p : PulseSetting} (h : p.Refused) :
    settingChecked k p = .error ⟨.badArgument, []⟩ := by
  refine refusal_of_bind (.ensure _) fun _ _ => refusal_of_bind (.ensure _) fun _ hdivider =>
    refusal_of_bind (.ensure _) fun _ hperiod => refusal_of_bind (.ensure _) fun _ hhighs => ?_
  obtain hd | hp | ⟨n, hn, hlt⟩ := h
  · exact absurd ((isDivider_iff _).1 (ensure_true_of_ok hdivider)) hd
  · exact absurd (of_decide_eq_true (ensure_true_of_ok hperiod)) (Nat.not_le_of_lt hp)
  · exact absurd (of_decide_eq_true (List.all_eq_true.1 (ensure_true_of_ok hhighs) n hn)) (Nat.not_le_of_lt hlt)

section
variable {k : Nat} {p : Option PulseSetting} (hfits : ∀ q ∈ p, q.Fits k)
include hfits

theorem pulsePartOf_of_taken (h : ¬PulseRefused k p) : pulsePartOf p.isSome k (pulsePartBytes p) = .ok p := by
  obtain ⟨hfour, hwith, hwithout, hsetting⟩ : k ≤ 4 ∧ (1 ≤ k → p ≠ none) ∧ (k = 0 → p = none) ∧ ∀ q ∈ p, ¬q.Refused := by
    simpa only [PulseRefused, not_or, not_lt, not_and, not_not, not_exists, ne_eq] using h
  refine (check_bind_of_ok (ensure_of_true (decide_eq_true hfour) _) _).trans ?_
  cases p with
  | none =>
    have hzero : k = 0 := Nat.eq_zero_of_not_pos fun hpos => hwith hpos rfl
    exact (check_bind_of_ok (ensure_of_true (decide_eq_true hzero) _) _).trans (check_bind_of_ok (ensure_of_true rfl _) _)
  | some q =>
    have hpos : 1 ≤ k := Nat.pos_of_ne_zero fun hzero => nomatch hwithout hzero
    obtain ⟨-, -, hlen, -⟩ := hfits q rfl
    exact (check_bind_of_ok (ensure_of_true (decide_eq_true hpos) _) _).trans (check_bind_of_ok
      ((pulseSettingOf_bytes (hfits q rfl)).trans (settingChecked_of_taken hlen (hsetting q rfl))) _)

theorem pulsePartOf_of_refused (h : PulseRefused k p) :
    pulsePartOf p.isSome k (pulsePartBytes p) = .error ⟨.badArgument, []⟩ := by
  refine refusal_of_bind (.ensure _) fun _ hfour => ?_
  have hle : k ≤ 4 := of_decide_eq_true (ensure_true_of_ok hfour)
  cases p with
  | none =>
    refine refusal_of_bind (.ensure _) fun _ hzero => ?_
    have hk : k = 0 := of_decide_eq_true (ensure_true_of_ok hzero)
    obtain h | ⟨h, -⟩ | ⟨-, h⟩ | ⟨q, hq, -⟩ := h
    · omega
    · omega
    · exact absurd rfl h
    · nomatch hq
  | some q =>
    refine refusal_of_bind (.ensure _) fun _ hpos => check_bind_of_error ?_ _
    have hk : 1 ≤ k := of_decide_eq_true (ensure_true_of_ok hpos)
    obtain h | ⟨-, h⟩ | ⟨h, -⟩ | ⟨q', hq, hrefused⟩ := h
    · omega
    · nomatch h
    · omega
    · obtain rfl := Option.some.inj hq
      exact (pulseSettingOf_bytes (hfits q rfl)).trans (settingChecked_of_refused hrefused)

end

theorem bytes_of_pulseSettingOf {k : Nat} {bs : List Byte} {p : PulseSetting} (h : pulseSettingOf k bs = .ok p) :
    bs = pulsePartBytes (some p) ∧ p.Fits k := by
  unfold pulseSettingOf at h
  split at h
  · next d ph pl rest =>
    obtain ⟨highs, hhighs, h⟩ := (check_bind_ok_iff _ _ _).1 h
    obtain ⟨_, hlen, h⟩ := (check_bind_ok_iff _ _ _).1 h
    obtain ⟨_, -, h⟩ := (check_bind_ok_iff _ _ _).1 h
    obtain ⟨_, -, h⟩ := (check_bind_ok_iff _ _ _).1 h
    obtain ⟨_, -, h⟩ := (check_bind_ok_iff _ _ _).1 h
    obtain rfl := Except.ok.inj h
    have hnumbers := (need_eq_ok_iff _ _ _).1 hhighs
    refine ⟨?_, d.isLt, Nat.lt_succ_of_le (number16_le ph pl), of_decide_eq_true (ensure_true_of_ok hlen),
      fun n hn => Nat.lt_succ_of_le (number16_highs_le hnumbers n hn)⟩
    rw [pulsePartBytes, byteOf_toNat, bytes16_number16, ← bytes_of_numbersOf hnumbers]
    rfl
  · nomatch h

theorem bytes_of_pulsePartOf {bit : Bool} {k : Nat} {bs : List Byte} {p : Option PulseSetting}
    (h : pulsePartOf bit k bs = .ok p) : p.isSome = bit ∧ bs = pulsePartBytes p ∧ ∀ q ∈ p, q.Fits k := by
  obtain ⟨_, -, h⟩ := (check_bind_ok_iff _ _ _).1 h
  cases bit with
  | true =>
    obtain ⟨_, -, h⟩ := (check_bind_ok_iff _ _ _).1 h
    obtain ⟨q, hq, h⟩ := (check_bind_ok_iff _ _ _).1 h
    obtain rfl : some q = p := Except.ok.inj h
    obtain ⟨hbytes, hfits⟩ := bytes_of_pulseSettingOf hq
    exact ⟨rfl, hbytes, fun q' hq' => Option.some.inj hq' ▸ hfits⟩
  | false =>
    obtain ⟨_, -, h⟩ := (check_bind_ok_iff _ _ _).1 h
    obtain ⟨_, hempty, h⟩ := (check_bind_ok_iff _ _ _).1 h
    obtain rfl : none = p := Except.ok.inj h
    exact ⟨rfl, List.isEmpty_iff.1 (ensure_true_of_ok hempty), nofun⟩

end Sys2Proof.Machine
end

section
/-!
PROOF. The body of an ACQUIRE (O16): a body divides into its fields and is checked field by field, in the order BAD_ARGUMENT,
BAD_LINES, MODE; and the body of a request whose operands agree gives that request.
-/

namespace Sys2Proof.Machine

/-! ## A body divides into its fields -/

theorem AcquireFields.bytes_eq (f : AcquireFields) (spare : Nat) :
    f.bytes spare = f.kind.code :: boolByte f.mayWait ::
      givenByte f.due.isSome f.waitLimit.isSome f.pulse.isSome spare :: byteOf f.lines.length ::
      BitVec.ofNat 8 (f.term / 256) :: BitVec.ofNat 8 f.term ::
      (optionalBytes f.due ++ (optionalBytes f.waitLimit ++ (f.lines ++ (f.configs ++ pulsePartBytes f.pulse)))) := by
  obtain ⟨kind, mayWait, term, due, waitLimit, lines, configs, pulse⟩ := f
  unfold AcquireFields.bytes
  cases due <;> cases waitLimit <;> cases pulse <;> simp [givenByte, optionalBytes, pulsePartBytes, bytes16]

/-- The checks of the lines and their modes, which come last (R32). -/
def acquireLines (f : AcquireFields) (cfgs : List LineConfig) : Check AcquireRequest := do
  countWithin f.lines.length 1 8
  let lines ← distinctLines f.lines
  modesAllowed true (lines.zip cfgs)
  pure ⟨f.kind, f.mayWait, f.term, f.due, if f.mayWait then f.waitLimit else none, ascendingLines lines,
    ascending (lines.zip cfgs), f.pulse⟩

/-- The checks of the term, the due mark and the wait limit, and those after them (R31). -/
def acquireRanges (f : AcquireFields) (cfgs : List LineConfig) : Check AcquireRequest := do
  ensure (decide (1 ≤ f.term)) .badArgument
  ensure (match f.due with | none => true | some d => decide (1 ≤ d ∧ d < f.term)) .badArgument
  ensure (match f.waitLimit with | none => true | some w => !f.mayWait || decide (1 ≤ w)) .badArgument
  acquireLines f cfgs

/-- The checks from the pulse group on. -/
def acquirePulse (f : AcquireFields) (parsed : List LineConfig × List Byte) : Check AcquireRequest := do
  let pulse ← pulsePartOf f.pulse.isSome (parsed.1.filter fun k => k.mode = .pulse).length parsed.2
  acquireRanges { f with pulse := pulse } parsed.1

theorem acquireRequest_bytes {f : AcquireFields} (hfits : f.Fits) (spare : Nat) :
    acquireRequest (f.bytes spare) =
      acquireConfigs f.kind f.lines.length (f.configs ++ pulsePartBytes f.pulse) >>= acquirePulse f := by
  obtain ⟨hlines, -, hterm, hdue, hwait, -⟩ := hfits
  obtain ⟨hbit0, hbit1, hbit2⟩ := givenByte_bits f.due.isSome f.waitLimit.isSome f.pulse.isSome spare
  have hn : (byteOf f.lines.length).toNat = f.lines.length := toNat_byteOf hlines
  rw [AcquireFields.bytes_eq]
  generalize f.configs ++ pulsePartBytes f.pulse = rest
  generalize givenByte f.due.isSome f.waitLimit.isSome f.pulse.isSome spare = options at hbit0 hbit1 hbit2 ⊢
  have hkindByte : kindOfByte f.kind.code = some f.kind := (kindOfByte_iff _ _).2 rfl
  have hwaitByte : mayWaitOfByte (boolByte f.mayWait) = some f.mayWait := (mayWaitOfByte_iff _ _).2 rfl
  have hdueField := optional16_bytes hdue (optionalBytes f.waitLimit ++ (f.lines ++ rest))
  have hwaitField := optional16_bytes hwait (f.lines ++ rest)
  have hlinesField := splitBytes_append f.lines rest
  rw [← hbit0] at hdueField
  rw [← hbit1] at hwaitField
  rw [← hn] at hlinesField
  refine (check_bind_of_ok (need_ok hkindByte _) _).trans ((check_bind_of_ok (need_ok hwaitByte _) _).trans
    ((check_bind_of_ok hdueField _).trans ((check_bind_of_ok hwaitField _).trans ((check_bind_of_ok hlinesField _).trans ?_))))
  unfold acquirePulse acquireRanges acquireLines
  dsimp only
  rw [hn, number16_bytes hterm, hbit2] <;> rfl

/-- A body that is not laid out as some fields are refused. -/
theorem acquireRequest_form {body : List Byte}
    (h : ∀ (f : AcquireFields) (spare : Nat), f.Fits → spare < 32 → body ≠ f.bytes spare) :
    acquireRequest body = .error ⟨.badArgument, []⟩ := by
  match body, h with
  | [], _ | [_], _ | [_, _], _ | [_, _, _], _ | [_, _, _, _], _ | [_, _, _, _, _], _ => rfl
  | kindB :: waitB :: options :: n :: th :: tl :: rest, h =>
    refine refusal_of_bind (.need _) fun kind hkind => refusal_of_bind (.need _) fun mayWait hmayWait =>
      refusal_of_bind (optional16_refuses _ _) fun ⟨due, rest₁⟩ hdue =>
      refusal_of_bind (optional16_refuses _ _) fun ⟨waitLimit, rest₂⟩ hwait =>
      refusal_of_bind (splitBytes_refuses _ _) fun ⟨lines, rest₃⟩ hlines =>
      refusal_of_bind (acquireConfigs_refuses _ _ _) fun ⟨cfgs, rest₄⟩ hconfigs =>
      refusal_of_bind (pulsePartOf_refuses _ _ _) fun pulse hpulse => ?_
    obtain ⟨hdueBit, rfl, hdueFits⟩ := bytes_of_optional16 hdue
    obtain ⟨hwaitBit, rfl, hwaitFits⟩ := bytes_of_optional16 hwait
    obtain ⟨hlength, rfl⟩ := append_of_splitBytes hlines
    obtain ⟨cs, hcount, hcfgs, rfl⟩ := bytes_of_acquireConfigs hconfigs
    obtain ⟨hpulseBit, rfl, hpulseFits⟩ := bytes_of_pulsePartOf hpulse
    have hkindByte := (kindOfByte_iff _ _).1 ((need_eq_ok_iff _ _ _).1 hkind)
    have hwaitByte := (mayWaitOfByte_iff _ _).1 ((need_eq_ok_iff _ _ _).1 hmayWait)
    have hspare : options.toNat / 8 < 32 := by
      have := options.isLt
      omega
    rw [← hlength] at hcount
    rw [length_filter_pulse hcfgs] at hpulseFits
    refine absurd ?_ (h ⟨kind, mayWait, number16 th tl, due, waitLimit, lines, cs, pulse⟩ (options.toNat / 8)
      ⟨hlength ▸ n.isLt, hcount, Nat.lt_succ_of_le (number16_le th tl), hdueFits, hwaitFits, hpulseFits⟩ hspare)
    have hterm := bytes16_number16 th tl
    obtain ⟨hth, htl⟩ : BitVec.ofNat 8 (number16 th tl / 256) = th ∧ BitVec.ofNat 8 (number16 th tl) = tl := by
      simpa [bytes16] using hterm
    rw [AcquireFields.bytes_eq]
    dsimp only
    rw [hdueBit, hwaitBit, hpulseBit, ← givenByte_of_bits options, hlength, byteOf_toNat, hth, htl, hkindByte, hwaitByte]
    rfl

/-! ## BAD_ARGUMENT -/

/-- Ranges that R31 refuses. -/
abbrev AcquireFields.RangeRefused (f : AcquireFields) : Prop :=
  f.term = 0 ∨ (∃ d ∈ f.due, d = 0 ∨ f.term ≤ d) ∨ (f.mayWait = true ∧ f.waitLimit = some 0)

theorem AcquireFields.argumentRefused_iff (f : AcquireFields) :
    f.ArgumentRefused ↔
      f.RangeRefused ∨ mapAll configOfByte f.configs = none ∨ PulseRefused f.pulseCount f.pulse := by
  simp only [mapAll_none_iff, ← configRefused_iff, or_assoc]

theorem acquireRanges_of_refused {f : AcquireFields} (h : f.RangeRefused) (cfgs : List LineConfig) :
    acquireRanges f cfgs = .error ⟨.badArgument, []⟩ := by
  refine refusal_of_bind (.ensure _) fun _ hterm => refusal_of_bind (.ensure _) fun _ hdue => check_bind_of_error ?_ _
  have hpos : 1 ≤ f.term := of_decide_eq_true (ensure_true_of_ok hterm)
  obtain h | ⟨d, hd, h⟩ | ⟨hmayWait, hlimit⟩ := h
  · omega
  · rw [Option.mem_def.1 hd] at hdue
    have hwithin : 1 ≤ d ∧ d < f.term := of_decide_eq_true (ensure_true_of_ok hdue)
    omega
  · rw [hmayWait, hlimit]
    rfl

theorem acquireRanges_of_taken {f : AcquireFields} (h : ¬f.RangeRefused) (cfgs : List LineConfig) :
    acquireRanges f cfgs = acquireLines f cfgs := by
  obtain ⟨hterm, hdue, hwait⟩ : f.term ≠ 0 ∧ (∀ d ∈ f.due, d ≠ 0 ∧ d < f.term) ∧ (f.mayWait = true → f.waitLimit ≠ some 0) := by
    simpa only [AcquireFields.RangeRefused, not_or, not_exists, not_and, not_le] using h
  have hdueTaken : (match f.due with | none => true | some d => decide (1 ≤ d ∧ d < f.term)) = true := by
    cases hd : f.due with
    | none => rfl
    | some d =>
      obtain ⟨hne, hlt⟩ := hdue d hd
      exact decide_eq_true ⟨Nat.pos_of_ne_zero hne, hlt⟩
  have hwaitTaken : (match f.waitLimit with | none => true | some w => !f.mayWait || decide (1 ≤ w)) = true := by
    cases hw : f.waitLimit with
    | none => rfl
    | some w =>
      cases hm : f.mayWait with
      | false => rfl
      | true => exact decide_eq_true (Nat.pos_of_ne_zero fun hzero => hwait hm (hw.trans (congrArg some hzero)))
  exact (check_bind_of_ok (ensure_of_true (decide_eq_true (Nat.pos_of_ne_zero hterm)) _) _).trans
    ((check_bind_of_ok (ensure_of_true hdueTaken _) _).trans (check_bind_of_ok (ensure_of_true hwaitTaken _) _))

section
variable {f : AcquireFields} (hfits : f.Fits) (spare : Nat)
include hfits

theorem acquireRequest_of_configs {cfgs : List LineConfig} (hcfgs : mapAll configOfByte f.configs = some cfgs) :
    acquireRequest (f.bytes spare) =
      pulsePartOf f.pulse.isSome f.pulseCount (pulsePartBytes f.pulse) >>= fun p => acquireRanges { f with pulse := p } cfgs := by
  obtain ⟨-, hcount, -⟩ := id hfits
  refine (acquireRequest_bytes hfits spare).trans ((check_bind_of_ok (acquireConfigs_bytes hcount _ hcfgs) _).trans ?_)
  unfold acquirePulse
  dsimp only
  rw [length_filter_pulse hcfgs]
  rfl

theorem acquireRequest_of_refused (h : f.ArgumentRefused) : acquireRequest (f.bytes spare) = .error ⟨.badArgument, []⟩ := by
  obtain ⟨-, hcount, -, -, -, hpulse⟩ := id hfits
  cases hcfgs : mapAll configOfByte f.configs with
  | none =>
    exact (acquireRequest_bytes hfits spare).trans (check_bind_of_error (acquireConfigs_refused hcount _ hcfgs) _)
  | some cfgs =>
    rw [acquireRequest_of_configs hfits spare hcfgs]
    by_cases hp : PulseRefused f.pulseCount f.pulse
    · exact check_bind_of_error (pulsePartOf_of_refused hpulse hp) _
    · refine (check_bind_of_ok (pulsePartOf_of_taken hpulse hp) _).trans (acquireRanges_of_refused ?_ cfgs)
      obtain hrange | hnone | hp' := f.argumentRefused_iff.1 h
      · exact hrange
      · nomatch hcfgs.symm.trans hnone
      · exact absurd hp' hp

theorem acquireRequest_of_taken (h : ¬f.ArgumentRefused) {cfgs : List LineConfig}
    (hcfgs : mapAll configOfByte f.configs = some cfgs) : acquireRequest (f.bytes spare) = acquireLines f cfgs := by
  obtain ⟨-, -, -, -, -, hpulse⟩ := id hfits
  obtain ⟨hrange, hform⟩ := not_or.1 (mt f.argumentRefused_iff.2 h)
  obtain ⟨-, hp⟩ := not_or.1 hform
  rw [acquireRequest_of_configs hfits spare hcfgs]
  exact (check_bind_of_ok (pulsePartOf_of_taken hpulse hp) _).trans (acquireRanges_of_taken hrange cfgs)

end

end Sys2Proof.Machine
end

section
/-!
PROOF. The lines and modes of an ACQUIRE body, the body of a request whose operands agree, and O16.
-/

namespace Sys2Proof.Machine

/-! ## BAD_LINES and MODE -/

theorem modeAllowed_true_false_iff (l : Line) (m : Mode) :
    modeAllowed true l m = false ↔ (m = .pulse ∧ (l.val < 8 ∨ 15 < l.val)) ∨ (m = .analog ∧ l.val < 16) := by
  cases m <;> simp [modeAllowed]
  omega

theorem acquireLines_badLines {f : AcquireFields} (h : LinesRefused 8 f.lines) (cfgs : List LineConfig) :
    acquireLines f cfgs = .error ⟨.badLines, []⟩ := by
  by_cases hcount : 1 ≤ f.lines.length ∧ f.lines.length ≤ 8
  · refine (check_bind_of_ok (ensure_of_true (decide_eq_true hcount) _) _).trans
      (check_bind_of_error (distinctLines_refuses ?_) _)
    obtain hnil | hmany | hbig | htwice := h
    · exact absurd hcount.1 (by simp [hnil])
    · omega
    · exact .inr hbig
    · exact .inl htwice
  · exact check_bind_of_error (ensure_of_not hcount _) _

section
variable {f : AcquireFields} {ls : List Line} {cfgs : List LineConfig} (hlines : f.lines = ls.map fun l => byteOf l.val)
include hlines

/-- Line bytes that are taken are those of lines, and then the modes decide. -/
theorem acquireLines_eq (hcount : 1 ≤ ls.length ∧ ls.length ≤ 8) (hn : ls.Nodup) :
    acquireLines f cfgs = modesAllowed true (ls.zip cfgs) >>= fun _ =>
      pure ⟨f.kind, f.mayWait, f.term, f.due, if f.mayWait then f.waitLimit else none, ascendingLines ls,
        ascending (ls.zip cfgs), f.pulse⟩ := by
  have hlength : f.lines.length = ls.length := by rw [hlines, List.length_map]
  have hdistinct : distinctLines f.lines = .ok ls := by rw [hlines, distinctLines_map_byteOf, if_pos hn]
  rw [← hlength] at hcount
  exact (check_bind_of_ok (ensure_of_true (decide_eq_true hcount) _) _).trans (check_bind_of_ok hdistinct _)

/-- A mode that its line does not allow shows in the bytes, and in what they name. -/
theorem modeRefused_iff (hcfgs : mapAll configOfByte f.configs = some cfgs) :
    f.ModeRefused ↔ ∃ p ∈ ls.zip cfgs, modeAllowed true p.1 p.2.mode = false := by
  have hzip : (ls.zip cfgs).map (fun p => (byteOf p.1.val, some p.2)) = (f.lines.zip f.configs).map fun p =>
      (p.1, configOfByte p.2) := by
    have hleft := List.zip_map (l₁ := ls) (l₂ := cfgs) (f := fun l => byteOf l.val) (g := some)
    have hright := List.zip_map (l₁ := f.lines) (l₂ := f.configs) (f := id) (g := configOfByte)
    rw [(mapAll_eq_some_iff _ _ _).1 hcfgs, ← hlines] at hleft
    rw [List.map_id] at hright
    exact hleft.symm.trans hright
  have hpair {b c : Byte} {l : Line} {k : LineConfig} (hb : byteOf l.val = b) (hk : some k = configOfByte c) :
      modeAllowed true l k.mode = false ↔
        (c.toNat / 32 = 3 ∧ (b.toNat < 8 ∨ 15 < b.toNat)) ∨ (c.toNat / 32 = 4 ∧ b.toNat < 16) := by
    rw [modeAllowed_true_false_iff, ← mode_code_of_configOfByte hk.symm, ← hb, toNat_byteOf (by omega)]
    cases k.mode <;> simp [Mode.code]
  constructor
  · rintro ⟨⟨b, c⟩, hmem, hmode⟩
    obtain ⟨⟨l, k⟩, hp, heq⟩ := List.mem_map.1 (hzip ▸ List.mem_map_of_mem hmem)
    obtain ⟨hb, hk⟩ := Prod.mk.inj heq
    exact ⟨(l, k), hp, (hpair hb hk).2 hmode⟩
  · rintro ⟨⟨l, k⟩, hmem, hmode⟩
    obtain ⟨⟨b, c⟩, hp, heq⟩ := List.mem_map.1 (hzip ▸ List.mem_map_of_mem (f := fun p : Line × LineConfig => (byteOf p.1.val, some p.2)) hmem)
    obtain ⟨hb, hk⟩ := Prod.mk.inj heq
    exact ⟨(b, c), hp, (hpair hb.symm hk.symm).1 hmode⟩

end

theorem exists_lines_of_not_refused {bs : List Byte} (h : ¬LinesRefused 8 bs) :
    ∃ ls : List Line, bs = ls.map (fun l => byteOf l.val) ∧ (1 ≤ ls.length ∧ ls.length ≤ 8) ∧ ls.Nodup := by
  obtain ⟨hnil, hmost, hbig, hn⟩ : bs ≠ [] ∧ bs.length ≤ 8 ∧ (∀ b ∈ bs, b.toNat ≤ 23) ∧ bs.Nodup := by
    simpa only [LinesRefused, not_or, not_lt, not_exists, not_and, not_not] using h
  obtain ⟨ls, rfl⟩ := exists_lines_of_bytes hbig
  rw [List.length_map] at hmost
  exact ⟨ls, rfl, ⟨List.length_pos_of_ne_nil fun hls => hnil (by rw [hls]; rfl), hmost⟩, hn.of_map⟩

section
variable {f : AcquireFields} {cfgs : List LineConfig} (h : ¬LinesRefused 8 f.lines)
  (hcfgs : mapAll configOfByte f.configs = some cfgs)
include h hcfgs

theorem acquireLines_mode (hmode : f.ModeRefused) : acquireLines f cfgs = .error ⟨.mode, []⟩ := by
  obtain ⟨ls, hlines, hcount, hn⟩ := exists_lines_of_not_refused h
  obtain ⟨p, hp, hrefused⟩ := (modeRefused_iff hlines hcfgs).1 hmode
  rw [acquireLines_eq hlines hcount hn]
  exact check_bind_of_error (ensure_of_false (List.all_eq_false.2 ⟨p, hp, by simp [hrefused]⟩) _) _

theorem acquireLines_ok (hmode : ¬f.ModeRefused) : ∃ r, acquireLines f cfgs = .ok r := by
  obtain ⟨ls, hlines, hcount, hn⟩ := exists_lines_of_not_refused h
  rw [acquireLines_eq hlines hcount hn]
  refine ⟨_, check_bind_of_ok (ensure_of_true (List.all_eq_true.2 fun p hp => ?_) _) _⟩
  rw [← Bool.not_eq_false]
  exact fun hrefused => hmode ((modeRefused_iff hlines hcfgs).2 ⟨p, hp, hrefused⟩)

end

/-! ## The body of a request -/

theorem bytes16_mod (n : Nat) : bytes16 (n % 65536) = bytes16 n := by
  have hhigh : BitVec.ofNat 8 (n % 65536 / 256) = BitVec.ofNat 8 (n / 256) := by
    refine BitVec.eq_of_toNat_eq ?_
    rw [BitVec.toNat_ofNat, BitVec.toNat_ofNat]
    omega
  have hlow : BitVec.ofNat 8 (n % 65536) = BitVec.ofNat 8 n := by
    refine BitVec.eq_of_toNat_eq ?_
    rw [BitVec.toNat_ofNat, BitVec.toNat_ofNat]
    omega
  rw [bytes16, hhigh, hlow]
  rfl

/-- The configurations of some lines, in the order of the lines. -/
def configsOf (ps : LineConfigs) (order : List Line) : List LineConfig := order.filterMap (configFor ps)

/-- The fields of a request's body, with what is not examined (R187, R188). -/
def AcquireRequest.fields (r : AcquireRequest) (order : List Line) (low : Line → Fin 4) (unused : Option Nat) : AcquireFields where
  kind := r.kind
  mayWait := r.mayWait
  term := r.term
  due := r.due
  waitLimit := (r.waitLimit.or unused).map (· % 65536)
  lines := order.map fun l => byteOf l.val
  configs := order.filterMap fun l => (configFor r.configs l).map fun k => byteOf (k.byte.toNat + (low l).val)
  pulse := r.pulse

theorem AcquireRequest.body_eq (r : AcquireRequest) (order : List Line) (spare : Nat) (low : Line → Fin 4)
    (unused : Option Nat) : r.body order spare low unused = (r.fields order low unused).bytes spare := by
  unfold AcquireRequest.body AcquireFields.bytes AcquireRequest.fields
  cases r.waitLimit.or unused with
  | none => simp
  | some w => simp [bytes16_mod]

section
variable {ps : LineConfigs} {order : List Line}

theorem mapAll_configsOf (low : Line → Fin 4) :
    mapAll configOfByte (order.filterMap fun l => (configFor ps l).map fun k => byteOf (k.byte.toNat + (low l).val)) =
      some (configsOf ps order) := by
  refine (mapAll_eq_some_iff _ _ _).2 ?_
  rw [configsOf, List.map_filterMap, List.map_filterMap]
  refine List.filterMap_congr fun l _ => ?_
  cases configFor ps l with
  | none => rfl
  | some k => exact congrArg some (configOfByte_byte k (low l).isLt).symm

theorem zip_configsOf (h : ∀ l ∈ order, (configFor ps l).isSome = true) :
    order.zip (configsOf ps order) = order.filterMap fun l => (configFor ps l).map fun k => (l, k) := by
  unfold configsOf
  induction order with
  | nil => rfl
  | cons l ls ih =>
    obtain ⟨k, hk⟩ := Option.isSome_iff_exists.1 (h l (.head _))
    rw [List.filterMap_cons_some hk, List.filterMap_cons_some (by rw [hk]; rfl), List.zip_cons_cons,
      ih fun l' hl' => h l' (.tail _ hl')]

theorem length_configsOf (h : ∀ l ∈ order, (configFor ps l).isSome = true) : (configsOf ps order).length = order.length := by
  unfold configsOf
  induction order with
  | nil => rfl
  | cons l ls ih =>
    obtain ⟨k, hk⟩ := Option.isSome_iff_exists.1 (h l (.head _))
    rw [List.filterMap_cons_some hk, List.length_cons, List.length_cons, ih fun l' hl' => h l' (.tail _ hl')]

/-- Lines listed in any order take their own configurations. -/
theorem zip_configsOf_perm (h : order.Perm (ps.map Prod.fst)) (hn : (ps.map Prod.fst).Nodup) :
    (order.zip (configsOf ps order)).Perm ps := by
  have hsome : ∀ l ∈ order, (configFor ps l).isSome = true := fun l hl => (configFor_isSome_iff ps l).2 (h.mem_iff.1 hl)
  rw [zip_configsOf hsome]
  have hself : (ps.map Prod.fst).filterMap (fun l => (configFor ps l).map fun k => (l, k)) = ps := by
    rw [List.filterMap_map]
    refine (List.filterMap_congr fun p hp => ?_).trans List.filterMap_some
    exact congrArg (Option.map fun k => (p.1, k)) (lookup_of_mem hn hp)
  exact (h.filterMap _).trans (.of_eq hself)

theorem ascending_of_perm {qs : LineConfigs} (h : qs.Perm ps) (hsorted : (ps.map Prod.fst).Pairwise (· < ·)) :
    ascending qs = ps := by
  have hn : (qs.map Prod.fst).Nodup := (h.map _).nodup_iff.2 (hsorted.imp ne_of_lt)
  have hkeys : ((ascending qs).map Prod.fst).Pairwise (· < ·) := by
    rw [map_fst_ascending]
    exact ascendingLines_pairwise _
  exact ((ascending_perm hn).trans h).eq_of_pairwise (fun _ _ _ _ h₁ h₂ => absurd (h₁.trans h₂) (lt_irrefl _))
    (List.pairwise_map.1 hkeys) (List.pairwise_map.1 hsorted)

theorem ascendingLines_of_perm {ls : List Line} (h : order.Perm ls) (hsorted : ls.Pairwise (· < ·)) :
    ascendingLines order = ls := by
  have hn : order.Nodup := h.nodup_iff.2 (hsorted.imp ne_of_lt)
  exact ((ascendingLines_perm hn).trans h).eq_of_pairwise (fun _ _ _ _ h₁ h₂ => absurd (h₁.trans h₂) (lt_irrefl _))
    (ascendingLines_pairwise _) hsorted

end

/-! ## Operands that agree -/

/-- What `AcquireRequest.well` says of the lines and configurations (R21, R32). -/
structure AcquireRequest.LinesAgree (r : AcquireRequest) : Prop where
  count : 1 ≤ r.lines.length ∧ r.lines.length ≤ 8
  sorted : r.lines.Pairwise (· < ·)
  exclusive : r.kind = .exclusive → r.configs.map Prod.fst = r.lines
  shared : r.kind = .shared → r.configs = []
  allowed : ∀ p ∈ r.configs, modeAllowed true p.1 p.2.mode = true

/-- What it says of the pulse group, with `k` PULSE lines (R31). -/
structure AcquireRequest.PulseAgrees (r : AcquireRequest) : Prop where
  fits : ∀ p ∈ r.pulse, p.Fits (pulseLines r.configs).length
  taken : ¬PulseRefused (pulseLines r.configs).length r.pulse

section
variable {r : AcquireRequest} (hwell : r.well = true)
include hwell

theorem AcquireRequest.linesAgree : r.LinesAgree := by
  unfold AcquireRequest.well at hwell
  simp only [Bool.and_eq_true, decide_eq_true_eq] at hwell
  obtain ⟨⟨⟨⟨⟨⟨⟨⟨hmin, hmax⟩, hsorted⟩, hconfigs⟩, -⟩, -⟩, -⟩, -⟩, -⟩ := hwell
  cases hkind : r.kind with
  | exclusive =>
    rw [hkind] at hconfigs
    simp only [Bool.and_eq_true, decide_eq_true_eq, List.all_eq_true] at hconfigs
    exact ⟨⟨hmin, hmax⟩, hsorted, fun _ => hconfigs.1, fun h => (nomatch h.symm.trans hkind), hconfigs.2⟩
  | shared =>
    rw [hkind] at hconfigs
    have hnil : r.configs = [] := List.isEmpty_iff.1 hconfigs
    exact ⟨⟨hmin, hmax⟩, hsorted, fun h => (nomatch h.symm.trans hkind), fun _ => hnil, by rw [hnil]; nofun⟩

theorem AcquireRequest.pulseAgrees : r.PulseAgrees := by
  unfold AcquireRequest.well at hwell
  simp only [Bool.and_eq_true] at hwell
  obtain ⟨-, hpulse⟩ := hwell
  cases hp : r.pulse with
  | none =>
    rw [hp] at hpulse
    have hnil : pulseLines r.configs = [] := List.isEmpty_iff.1 hpulse
    refine ⟨by rw [hp]; nofun, ?_⟩
    rw [hp, hnil]
    rintro (h | ⟨h, -⟩ | ⟨-, h⟩ | ⟨q, hq, -⟩)
    · exact absurd h (by decide)
    · exact absurd h (by decide)
    · exact h rfl
    · nomatch hq
  | some p =>
    rw [hp] at hpulse
    simp only [Bool.and_eq_true, decide_eq_true_eq, List.all_eq_true] at hpulse
    obtain ⟨⟨⟨⟨⟨⟨hpos, hfour⟩, hdivider⟩, hlow⟩, hhigh⟩, hlen⟩, hhighs⟩ := hpulse
    have hmem := (isDivider_iff _).1 hdivider
    have hbyte : ∀ n ∈ [1, 2, 4, 8, 16, 32, 64, 128], n < 256 := by decide
    refine ⟨fun q hq => ?_, ?_⟩
    · obtain rfl := Option.some.inj (hp.symm.trans hq)
      exact ⟨hbyte _ hmem, by omega, hlen, fun n hn => by have := hhighs n hn; omega⟩
    · rw [hp]
      rintro (h | ⟨-, h⟩ | ⟨h, -⟩ | ⟨q, hq, hrefused⟩)
      · omega
      · nomatch h
      · omega
      · obtain rfl := Option.some.inj hq
        obtain h | h | ⟨n, hn, h⟩ := hrefused
        · exact h hmem
        · omega
        · exact absurd (hhighs n hn) (Nat.not_le_of_lt h)

end

theorem AcquireRequest.waitLimit_of_noWait {r : AcquireRequest} (hwell : r.well = true) (h : r.mayWait = false) :
    r.waitLimit = none := by
  unfold AcquireRequest.well at hwell
  simp only [Bool.and_eq_true, h] at hwell
  obtain ⟨⟨-, hwait⟩, -⟩ := hwell
  cases hw : r.waitLimit with
  | none => rfl
  | some w =>
    rw [hw] at hwait
    simp at hwait

section
variable {r : AcquireRequest} {order : List Line} (hwell : r.well = true) (horder : order.Perm r.lines)
include hwell horder

theorem AcquireRequest.zip_perm : (order.zip (configsOf r.configs order)).Perm r.configs := by
  have hagree := AcquireRequest.linesAgree hwell
  cases hkind : r.kind with
  | exclusive =>
    have hkeys := hagree.exclusive hkind
    exact zip_configsOf_perm (hkeys ▸ horder) (hkeys ▸ hagree.sorted.imp ne_of_lt)
  | shared =>
    have hnone : configsOf [] order = [] := List.filterMap_eq_nil_iff.2 fun _ _ => rfl
    rw [hagree.shared hkind, hnone, List.zip_nil_right]

theorem AcquireRequest.length_configsOf : (configsOf r.configs order).length = configCount r.kind order.length := by
  have hagree := AcquireRequest.linesAgree hwell
  cases hkind : r.kind with
  | exclusive =>
    refine Sys2Proof.Machine.length_configsOf fun l hl => (configFor_isSome_iff _ _).2 ?_
    rw [hagree.exclusive hkind]
    exact horder.mem_iff.1 hl
  | shared =>
    rw [hagree.shared hkind]
    exact congrArg List.length (List.filterMap_eq_nil_iff.2 fun _ _ => rfl)

theorem AcquireRequest.fields_pulseCount (low : Line → Fin 4) (unused : Option Nat) :
    (r.fields order low unused).pulseCount = (pulseLines r.configs).length := by
  have hle : (configsOf r.configs order).length ≤ order.length := by
    rw [AcquireRequest.length_configsOf hwell horder]
    cases r.kind
    · exact Nat.le_refl _
    · exact Nat.zero_le _
  have hcount := length_filter_pulse (mapAll_configsOf (ps := r.configs) (order := order) low)
  rw [← length_pulseLines_zip hle, (pulseLines_perm (AcquireRequest.zip_perm hwell horder)).length_eq] at hcount
  exact hcount.symm

theorem AcquireRequest.fields_fits (low : Line → Fin 4) (unused : Option Nat) : (r.fields order low unused).Fits := by
  have hagree := AcquireRequest.linesAgree hwell
  obtain ⟨hterm, hdue, -⟩ := AcquireRequest.counts hwell
  have hlength : order.length = r.lines.length := horder.length_eq
  have hcount : (r.fields order low unused).lines.length = order.length := List.length_map _
  have hbytes := mapAll_length (mapAll_configsOf (ps := r.configs) (order := order) low)
  simp only [termWithin, Bool.and_eq_true, decide_eq_true_eq] at hterm
  refine ⟨?_, ?_, Nat.lt_succ_of_le hterm.2, fun d hd => ?_, fun w hw => ?_, fun p hp => ?_⟩
  · rw [hcount, hlength]
    have := hagree.count.2
    omega
  · rw [hcount]
    exact hbytes.symm.trans (AcquireRequest.length_configsOf hwell horder)
  · rw [Option.mem_def.1 (show d ∈ r.due from hd)] at hdue
    simp only [dueWithin, Bool.and_eq_true, decide_eq_true_eq] at hdue
    omega
  · obtain ⟨n, -, rfl⟩ := Option.map_eq_some_iff.1 hw
    exact Nat.mod_lt _ (by decide)
  · rw [AcquireRequest.fields_pulseCount hwell horder]
    exact (AcquireRequest.pulseAgrees hwell).fits p hp

variable {unused : Option Nat} (hunused : unused ≠ none → r.mayWait = false) (low : Line → Fin 4)
include hunused

omit horder in
/-- A wait limit that is sent with NO_WAIT is dropped (R188). -/
theorem AcquireRequest.fields_waitLimit :
    (if (r.fields order low unused).mayWait then (r.fields order low unused).waitLimit else none) = r.waitLimit := by
  obtain ⟨-, -, hwait⟩ := AcquireRequest.counts hwell
  change (if r.mayWait then (r.waitLimit.or unused).map (· % 65536) else none) = r.waitLimit
  cases hm : r.mayWait with
  | false => exact (AcquireRequest.waitLimit_of_noWait hwell hm).symm
  | true =>
    have hnone : unused = none := by
      by_contra hne
      nomatch hm.symm.trans (hunused hne)
    rw [hnone, Option.or_none]
    cases hw : r.waitLimit with
    | none => rfl
    | some w => exact congrArg some (Nat.mod_eq_of_lt (Nat.lt_succ_of_le (hwait w hw).2))

theorem AcquireRequest.fields_taken : ¬(r.fields order low unused).ArgumentRefused := by
  obtain ⟨hterm, hdue, hwait⟩ := AcquireRequest.counts hwell
  have hlimit := AcquireRequest.fields_waitLimit (order := order) hwell hunused low
  simp only [termWithin, Bool.and_eq_true, decide_eq_true_eq] at hterm
  rw [AcquireFields.argumentRefused_iff, AcquireRequest.fields_pulseCount hwell horder]
  rintro ((hzero | ⟨d, hd, h⟩ | ⟨hmayWait, h⟩) | hnone | hpulse)
  · exact absurd hterm.1 (by rw [show r.term = 0 from hzero]; decide)
  · rw [Option.mem_def.1 (show d ∈ r.due from hd)] at hdue
    simp only [dueWithin, Bool.and_eq_true, decide_eq_true_eq] at hdue
    have hterm' : d = 0 ∨ r.term ≤ d := h
    omega
  · rw [if_pos hmayWait, h] at hlimit
    exact absurd (hwait 0 hlimit.symm).1 (by decide)
  · nomatch (mapAll_configsOf low).symm.trans hnone
  · exact (AcquireRequest.pulseAgrees hwell).taken hpulse

theorem acquireRequest_body (spare : Nat) : acquireRequest (r.body order spare low unused) = .ok r := by
  have hagree := AcquireRequest.linesAgree hwell
  have hperm := AcquireRequest.zip_perm hwell horder
  have hcount : 1 ≤ order.length ∧ order.length ≤ 8 := horder.length_eq ▸ hagree.count
  have hn : order.Nodup := horder.nodup_iff.2 (hagree.sorted.imp ne_of_lt)
  have hsorted : (r.configs.map Prod.fst).Pairwise (· < ·) := by
    cases hkind : r.kind with
    | exclusive => exact hagree.exclusive hkind ▸ hagree.sorted
    | shared => rw [hagree.shared hkind]; exact .nil
  have hmodes : modesAllowed true (order.zip (configsOf r.configs order)) = .ok () :=
    ensure_of_true (List.all_eq_true.2 fun p hp => hagree.allowed p (hperm.mem_iff.1 hp)) _
  rw [r.body_eq, acquireRequest_of_taken (AcquireRequest.fields_fits hwell horder low unused) spare
    (AcquireRequest.fields_taken hwell horder hunused low) (mapAll_configsOf low),
    acquireLines_eq (f := r.fields order low unused) rfl hcount hn, check_bind_of_ok hmodes,
    AcquireRequest.fields_waitLimit hwell hunused low, ascendingLines_of_perm horder hagree.sorted,
    ascending_of_perm hperm hsorted]
  rfl

end

theorem acquire_answers_error {s : State} {c : Client} {tag : Byte} {body : List Byte} {st : Status}
    (hsent : Sent s c .acquire tag body) (h : acquireRequest body = .error ⟨st, []⟩) :
    Answers (.acquire c) s s c tag st [] :=
  answers_of_error (cmd := .acquire) hsent rfl (check_bind_of_error h _)

/-- Settles O16: the body of a request is that of its fields (`acquireRequest_body`), and every other body is refused by the
first check that its fields fail. -/
theorem acquireBodyReadsBack : Obligations.AcquireBodyReadsBack := by
  unfold Obligations.AcquireBodyReadsBack
  refine ⟨fun r order spare low unused hwell horder _ hunused => acquireRequest_body hwell horder hunused low spare,
    fun s c tag body hsent => ⟨fun hform => acquire_answers_error hsent (acquireRequest_form hform),
      fun f spare hfits _ hbody => ?_⟩⟩
  subst hbody
  have hlines (h : ¬f.ArgumentRefused) : ∃ cfgs, mapAll configOfByte f.configs = some cfgs ∧
      acquireRequest (f.bytes spare) = acquireLines f cfgs := by
    obtain ⟨cfgs, hcfgs⟩ := Option.ne_none_iff_exists'.1 fun hnone => h (f.argumentRefused_iff.2 (.inr (.inl hnone)))
    exact ⟨cfgs, hcfgs, acquireRequest_of_taken hfits spare h hcfgs⟩
  refine ⟨fun h => acquire_answers_error hsent (acquireRequest_of_refused hfits spare h), fun h hbad => ?_,
    fun h hgood hmode => ?_, fun h hgood hmode => ?_⟩
  · obtain ⟨cfgs, -, heq⟩ := hlines h
    exact acquire_answers_error hsent (heq.trans (acquireLines_badLines hbad cfgs))
  · obtain ⟨cfgs, hcfgs, heq⟩ := hlines h
    exact acquire_answers_error hsent (heq.trans (acquireLines_mode hgood hcfgs hmode))
  · obtain ⟨cfgs, hcfgs, heq⟩ := hlines h
    obtain ⟨r, hr⟩ := acquireLines_ok hgood hcfgs hmode
    exact ⟨r, acquireRequest_well (heq.trans hr), heq.trans hr⟩

end Sys2Proof.Machine
end
